-- ==== Sys2Proof/Word.lean ====
section
/-! DEFINITION. The word types of the bit serializer: bytes, 3-bit wire codes, line levels (spec R13, R64, R93). -/

namespace Sys2Proof

/-- A byte of bytecode, a target address or a target datum: unsigned 8 bits (R64, R92). -/
abbrev Byte := BitVec 8

/-- A 3-bit wire code as sent on SDATA (R93). -/
abbrev Opc := BitVec 3

/-- The level of a line, or the logical value of a one-bit register: `true` is 1 (R15, R26). -/
abbrev Level := Bool

end Sys2Proof
end

