-- ==== Sys2Proof/Syntax.lean ====
section
/-! DEFINITION. The vector bytecode as syntax: one constructor per row of `spec/opcode_table.json`. -/

namespace Sys2Proof

/-- The five bytecode instructions (R93). A read triple keeps its byte 2 (`x`), because `decode` keeps it
and `encode` gives it back (R100, conflict C12); execution ignores it (R96). -/
inductive Instr where
  /-- `NOP`, format N, byte `00` (R91, R160). -/
  | nop
  /-- `WRMEM a, v`, format T, bytes `04 a v` (R92, R161). -/
  | wrmem (a v : Byte)
  /-- `RDMEM a`, format T, bytes `05 a x` (R92, R162). -/
  | rdmem (a x : Byte)
  /-- `WRREG a, v`, format T, bytes `06 a v` (R92, R163). -/
  | wrreg (a v : Byte)
  /-- `RDREG a`, format T, bytes `07 a x` (R92, R164). -/
  | rdreg (a x : Byte)
deriving DecidableEq, Repr

end Sys2Proof
end

