-- ==== Sys2Proof/Decode.lean ====
section
/-! DEFINITION. Decoding of bytecode, total on any bytes (R90 to R100), and the encoder (R101). -/

namespace Sys2Proof

/-- What the bytes at the head of a buffer are (R90, R97, R98). -/
inductive Decoded where
  /-- An instruction and the bytes after it. -/
  | instr (i : Instr) (rest : List Byte)
  /-- No byte is left: the vector is complete (R159). -/
  | endOfVector
  /-- A non-zero first byte with fewer than two bytes after it: a truncated triple (R98). -/
  | malformed
  /-- A first byte that is no instruction's: `01` to `03`, `08` to `FF` (R97). -/
  | illegal (b : Byte)
deriving DecidableEq, Repr

/-- What a whole buffer decodes to (R100). -/
inductive VectorDecoded where
  /-- The commands, in index order. -/
  | ok (is : List Instr)
  /-- `MalformedBytecode(i)`: the truncated triple starts at index `i`. -/
  | malformed (i : Nat)
  /-- `IllegalOpcode(i, b)`: the first byte `b` at index `i` is no instruction's. -/
  | illegal (i : Nat) (b : Byte)
deriving DecidableEq, Repr

/-- A triple by its first byte, the whole byte being matched (R93, R97). -/
def decodeTriple (b0 a v : Byte) : Option Instr :=
  if b0 = 0x04#8 then some (.wrmem a v)
  else if b0 = 0x05#8 then some (.rdmem a v)
  else if b0 = 0x06#8 then some (.wrreg a v)
  else if b0 = 0x07#8 then some (.rdreg a v)
  else none

/-- The first command of a buffer; truncation is tested before opcode legality (R98, R100, R154). -/
def decodeOne : List Byte → Decoded
  | [] => .endOfVector
  | b0 :: rest =>
    if b0 = 0x00#8 then .instr .nop rest
    else
      match rest with
      | a :: v :: rest' =>
        match decodeTriple b0 a v with
        | some i => .instr i rest'
        | none => .illegal b0
      | _ => .malformed

/-- Put a decoded command before those of the rest of the buffer. -/
def consCommand (i : Instr) : VectorDecoded → VectorDecoded
  | .ok is => .ok (i :: is)
  | .malformed n => .malformed n
  | .illegal n b => .illegal n b

/-- `decode` of R100 on the bytes from index `n` on. -/
def decodeFrom : Nat → List Byte → VectorDecoded
  | _, [] => .ok []
  | n, b0 :: rest =>
    if b0 = 0x00#8 then consCommand .nop (decodeFrom (n + 1) rest)
    else
      match rest with
      | a :: v :: rest' =>
        match decodeTriple b0 a v with
        | some i => consCommand i (decodeFrom (n + 3) rest')
        | none => .illegal n b0
      | _ => .malformed n

/-- `decode : bytes -> list of Command, or error` (R100). -/
def decodeVector (buf : List Byte) : VectorDecoded := decodeFrom 0 buf

/-- The bytes of one command (R91, R92, R101): a no-op is one zero byte, a triple is (wire code, address, value). -/
def encode : Instr → List Byte
  | .nop => [0x00#8]
  | .wrmem a v => [0x04#8, a, v]
  | .rdmem a x => [0x05#8, a, x]
  | .wrreg a v => [0x06#8, a, v]
  | .rdreg a x => [0x07#8, a, x]

/-- A vector encodes to the concatenation of its commands' encodings, in order (R101). -/
def encodeVector : List Instr → List Byte
  | [] => []
  | i :: is => encode i ++ encodeVector is

/-- Byte `k` of an instruction whose bits are `w` numbered as the opcode table numbers them: bit 0 is the least
significant bit of byte 0, and each later byte's bits count on from there; the bits from `nbits` on are 0. -/
def tableByte (nbits w k : Nat) : Byte := BitVec.ofNat 8 (w % 2 ^ nbits / 2 ^ (8 * k))

/-- The longest instruction's three bytes, lowest index first, of an instruction whose bits are `w`. -/
def tableBytes (nbits w : Nat) : List Byte :=
  [tableByte nbits w 0, tableByte nbits w 1, tableByte nbits w 2]

/-- The instruction the decoder reads from an instruction whose bits are `w`, `none` where it refuses. A word shorter than
three bytes is followed by zero bytes, so the lone byte `04` reads as `WRMEM 00, 00`, though a vector that ends there is a
truncated triple (DESIGN CHOICE, log entry 27). -/
def decodeTableWord (nbits w : Nat) : Option Instr :=
  match decodeOne (tableBytes nbits w) with
  | .instr i _ => some i
  | .endOfVector => none
  | .malformed => none
  | .illegal _ => none

end Sys2Proof
end

