-- ==== Sys2Proof/Config.lean ====
section
/-! DEFINITION. The constants the spec fixes (R9), the open parameters of a board (R10), the line events (R15),
and what the environment answers, as opaque constants (R20, R66). -/

namespace Sys2Proof

/-- The nine named vectors with the ids 0 to 8 (R152). -/
inductive VecId where
  | init1 | init2 | init3V5 | init3V3 | idSetup | bulkErase | program | verifySetup | eraseBlock
deriving DecidableEq, Repr, Inhabited

/-- The identity of the vector being executed: a named vector, or `HOSTBUF` (R34). -/
inductive VecSel where
  | vec (id : VecId)
  | hostbuf
deriving DecidableEq, Repr, Inhabited

/-- The six named delays (R10, R44). -/
inductive DelayId where
  | xresHold | xresGap | xresBrief | xresToMagic | pwrOff | pwrRst
deriving DecidableEq, Repr, Inhabited

/-- The result of one `measure` (R15, R300). -/
inductive MeasResult where
  | ok (t : Nat)
  | timeout
deriving DecidableEq, Repr, Inhabited

/-- The line events of R15, in the order of its table. `rst` is the model's own: it marks a block reset, so that a
clocked string can be read off a trace that holds one (log entry 12). -/
inductive LineEvent where
  /-- `D(b)`: the output latch is driven to `b`. -/
  | d (b : Level)
  /-- `DIR(in)` is `dir false`, `DIR(out)` is `dir true`. -/
  | dir (out : Bool)
  /-- `P`: one clock pulse, high then low. -/
  | p
  /-- `S(b)`: a sample of the data line. -/
  | s (b : Level)
  /-- `X(1)` reset asserted, `X(0)` released. -/
  | x (on : Bool)
  /-- `PW(1)` power on, `PW(0)` power off. -/
  | pw (on : Bool)
  /-- `W(T)`: a delay. -/
  | w (t : Nat)
  /-- `M(level, result)`: a measurement; it stands where its window opens (log entry 9). -/
  | m (level : Level) (r : MeasResult)
  /-- A block reset (R320): no line event of the spec. -/
  | rst
deriving DecidableEq, Repr, Inhabited

/-- A symbol of a clocked string: the driven level at a pulse, or `z` when the driver is off (R13, R16). -/
inductive Sym where
  | zero | one | z
deriving DecidableEq, Repr, Inhabited

/-- What the target sees of one line event (R16): a pulse with its symbol, and the `S`, `M`, `X` and `PW` events. `D`,
`DIR` and `W` events are not seen; a pulse's symbol says what the first two left. A block reset, whose jump of the lines is
no event of the spec, is seen as itself (log entry 12). -/
inductive TargetEvent where
  | p (sym : Sym)
  | s (b : Level)
  | m (level : Level) (r : MeasResult)
  | x (on : Bool)
  | pw (on : Bool)
  | rst
deriving DecidableEq, Repr, Inhabited

/-- What the data line does in one measurement window (R175, R176): the first microsecond, counted from the opening
of the window, at which it has the awaited level (`none`: never), and how the block decides when that is exactly the
timeout, which the spec leaves open (R177, U5). -/
structure EdgeAnswer where
  first : Option Nat
  tieOk : Bool
deriving DecidableEq, Repr, Inhabited

/-- The values the spec leaves unspecified after a block reset (R52, R320, U13). The block's registers hold the low
`PCW` bits of `pc` and `vlen` (R32, R33). -/
structure ResetDraw where
  rdata : Byte
  pc : Nat
  vlen : Nat
  vselId : VecSel
  cfgVsel : Bool
  cfgRstMode : Bool
  pwrEn : Bool
deriving DecidableEq, Repr, Inhabited

/-- The open parameters (R10, R44): the configuration of one board and one target. They are parameters of the step
relation and no state (R20); nothing is assumed about any of them. -/
structure Board where
  /-- `MAGIC`, index 0 transmitted first (R69). -/
  magic : Vector Level 22
  /-- `VEC[id]` (R152). -/
  vec : VecId → List Byte
  /-- The six delays (R44). -/
  delay : DelayId → Nat
  /-- `XRES_ACTIVE`, the electrical level that asserts reset (R26). -/
  xresActive : Level
  /-- `PWR_ACTIVE`, the electrical level that enables power (R26). -/
  pwrActive : Level
  /-- `HAS_PWR` (R26, R192). -/
  hasPwr : Bool
  /-- `T_SCLK_HIGH`, `T_SCLK_LOW`: no rule depends on them (R10). -/
  tSclkHigh : Nat
  tSclkLow : Nat
  /-- `PCW`: vectors are shorter than `2 ^ PCW` bytes (R10, R33). -/
  pcw : Nat
  /-- `ID_ADDR_HI`, `ID_ADDR_LO`, `BLOCK_SEL_ADDR`: the host's constants (R241, R244). -/
  idAddrHi : Byte
  idAddrLo : Byte
  blockSelAddr : Byte
  /-- `SETBANK_SEQ(b)`: the (address, value) pairs of the register writes that select bank `b` (R243). The spec gives
  `BankIndex` no width; the bank is a natural number here (DESIGN CHOICE, log entry 25). -/
  setBankSeq : Nat → List (Byte × Byte)
deriving Inhabited

namespace Config

/-! The constants of R9. -/

def addrW : Nat := 8
def valW : Nat := 8
def opcW : Nat := 3
def trailerPulses : Nat := 3
def primePulses : Nat := 2
def readBits : Nat := 8
def readTailPulses : Nat := 1
def noopPulses : Nat := 22
def framePulses : Nat := 22
def magicLen : Nat := 22
def pollClkHz : Nat := 50000
/-- One period of the 50 kHz poll clock in microseconds (R174). -/
def pollPeriodUs : Nat := 1000000 / pollClkHz
def syncTimeoutUs : Nat := 100000
def flushPulses : Nat := 40
def blockBytes : Nat := 64
def blocksPerBank : Nat := 128
def bankBytes : Nat := 8192
def bufBase : Byte := 0x80#8
def statusAddr : Byte := 0xF8#8

/-- The board the block is built into: no value of it is known (R10, log entry 1). -/
opaque board : Board

/-- The target's answer to a `sample()` after all it has seen: no value of it is known (R16, R66, log entry 2). -/
opaque targetBit : List TargetEvent → Level

/-- What the data line does in a window that waits for the given level, after all the target has seen (R16, R66, log
entry 2). -/
opaque targetEdge : List TargetEvent → Level → EdgeAnswer

/-- How many poll pulses follow the given trace in the rest of a poll phase, before the bound of R174 (log entry 2). -/
opaque pollDraw : List LineEvent → Nat

/-- The unspecified values after a block reset that follows the given trace (U13, log entry 4). -/
opaque resetDraw : List LineEvent → ResetDraw

end Config

end Sys2Proof
end

