-- ==== Sys2Proof/Machine/State.lean ====
section
/-! DEFINITION. The machine's state as plain data, the reasons a step can stop, and the state after reset
(10_state.md R20 to R52). -/

namespace Sys2Proof.Machine

/-- Memory as cells in canonical form: addresses strictly rising, no cell equal to `00`, which is what an unlisted
address reads as. It holds the vector buffer `VBUF` (R60), the only memory the block reads. -/
abbrev Memory := List Host.Cell

/-- The states of the handshake, in the source's order (R36). -/
inductive HS where
  | poweredOff | resetting | magicSent | init1Acked | init2Acked | ready
deriving DecidableEq, Repr

/-- The fault causes; `none` when no fault is recorded (R39, R281). -/
inductive FaultCause where
  | none | malformedBytecode | syncTimeout | illegalOpcode
deriving DecidableEq, Repr

/-- The fault register (R39). `phase` is `false` for rise and `true` for fall. -/
structure FaultReg where
  valid : Bool
  cause : FaultCause
  phase : Bool
  pc : Nat
  vec : VecSel
deriving DecidableEq, Repr

/-- One record of the read-result stream `RDLOG` (R158). -/
structure ReadRec where
  opc : Opc
  addr : Byte
  value : Byte
deriving DecidableEq, Repr

/-- The one-shot timer of wait-and-poll (R46, R296). -/
inductive Timer where
  | idle | armedHigh | armedLow
deriving DecidableEq, Repr

/-- The target's two spaces (R64). -/
inductive Space where
  | memory | register
deriving DecidableEq, Repr

/-- The operand of `EXEC`: a vector id or a host byte sequence (R220, R223). -/
inductive VecSrc where
  | id (v : VecId)
  | bytes (bs : List Byte)
deriving DecidableEq, Repr

/-- The five host commands (R220). `WROP` takes only write kinds and `RDOP` only read kinds, so the kind is the space
(R226, U22). -/
inductive HostCmd where
  | acquire
  | exec (src : VecSrc)
  | waitpoll
  | wrop (sp : Space) (a v : Byte)
  | rdop (sp : Space) (a : Byte)
deriving DecidableEq, Repr

/-- The registers a host may read (R45, R229). -/
inductive HostReg where
  | hs | fault | rdata | rdvalid | rdlog | busy | pc | cfgVsel | cfgRstMode | cfgTimeout
deriving DecidableEq, Repr

/-- The value of one of them. -/
inductive RegVal where
  | hs (v : HS)
  | fault (v : FaultReg)
  | rdata (v : Byte)
  | rdvalid (v : Bool)
  | rdlog (v : List ReadRec)
  | busy (v : Bool)
  | pc (v : Nat)
  | cfgVsel (v : Bool)
  | cfgRstMode (v : Bool)
  | cfgTimeout (v : BitVec 32)
deriving DecidableEq, Repr

/-- Everything the outside can do to the block: give a command (R220), write a configuration register or read a
register (R45), assert the block's reset input (R320), or nothing. `wait` is the outside doing nothing for one step of the
block: an input that can be taken is taken as soon as it is next, so the `wait`s before it say at which point of a running
command it arrives (DESIGN CHOICE, log entry 30). `reset cut` lets `cut` line events of the operation in
progress happen before the lines jump (R322). The reset input is an event, its assertion and release in one step: a `rst`
held for longer is the same input again, and what the host does meanwhile stands after it (DESIGN CHOICE, log entry 29). -/
inductive HostInput where
  | cmd (c : HostCmd)
  | setVsel (v : Bool)
  | setRstMode (v : Bool)
  | setTimeout (t : BitVec 32)
  | read (r : HostReg)
  | reset (cut : Nat)
  | wait
deriving DecidableEq, Repr

/-- What the host gets back (R220, R280). `cfgRefused` answers a configuration write that is not legal (U19). -/
inductive Reply where
  | done
  | doneByte (r : Byte)
  | fault (f : FaultReg)
  | refused
  | cfgRefused
  | value (v : RegVal)
deriving DecidableEq, Repr

/-- The actions a running host command still has to take: the lines of the spec's pseudocode as data (R153, R172, R193,
R195, R196, R199). The sequencer takes one a step; `run` is the interpreter's loop, one instruction a step. -/
inductive Action where
  /-- `HS <- h`. -/
  | setHs (h : HS)
  /-- `drive(b)`. -/
  | drive (b : Level)
  /-- `dir_in()`. -/
  | dirIn
  /-- `dir_out()`. -/
  | dirOut
  /-- `pulses(n)`. -/
  | pulses (n : Nat)
  /-- `xres(assert)`, `xres(release)`. -/
  | xres (on : Bool)
  /-- `power(on)`, `power(off)`. -/
  | power (on : Bool)
  /-- `delay(T)`. -/
  | delay (d : DelayId)
  /-- The 22 bits of the magic pattern (R199). -/
  | magic
  /-- The start of `Exec(buf)` (R151). -/
  | load (src : VecSrc)
  /-- The start of `Exec` of the Init-Vector-3 that `CFG.VSEL` selects at this step (R200). -/
  | loadInit3
  /-- The loop of `Exec` (R153). -/
  | run
  /-- `start_poll_clock()`: the timer is armed (R173). -/
  | startPoll
  /-- The rise window of wait-and-poll opens (R175). -/
  | rise
  /-- One expiry of the one-shot timer (R173, R296). -/
  | timer
  /-- The rise window ends with `r`. -/
  | riseEnd (r : MeasResult)
  /-- The fall window opens (R176), `t1` microseconds and `k1` poll pulses after the rise window did. -/
  | fall (t1 : Nat) (k1 : Nat)
  /-- The fall window ends with `r`. -/
  | fallEnd (t1 : Nat) (k1 : Nat) (r : MeasResult)
  /-- `stop_poll_clock()`. -/
  | stopPoll
  /-- One `measure` of the power-up detection (R198). -/
  | detect (level : Level)
  /-- `writeOp` of `WROP` (R225). -/
  | wrop (sp : Space) (a v : Byte)
  /-- `readOp` of `RDOP` (R226). -/
  | rdop (sp : Space) (a : Byte)
  /-- Completion with `Done` (R221). -/
  | finish
  /-- Completion with `Done(r)` (R220). -/
  | finishRead
deriving DecidableEq, Repr

/-- The state. The fields down to `mcnt` are the spec's; `todo` and `reply` say where the running command stands and
what the last one answered; `trace` is the observation of R12 and R15; the rest is the environment's script, which the
step reads: what the host will do, and the target's next answers (log entries 2 and 3). -/
structure State where
  /-- `SCLK` (R22). -/
  sclk : Level
  /-- `SDATA_OUT` (R23). -/
  sdataOut : Level
  /-- `SDATA_OE`: true is output mode (R24). -/
  sdataOe : Bool
  /-- `XRES`, logical: true is asserted (R26). -/
  xres : Bool
  /-- `PWR_EN`, logical: true is on; it exists only when `HAS_PWR` (R26). -/
  pwrEn : Bool
  /-- `RDATA` (R30). -/
  rdata : Byte
  /-- `RDVALID` (R30). -/
  rdvalid : Bool
  /-- `RDLOG`, oldest record first (R158). -/
  rdlog : List ReadRec
  /-- `PC` (R32). -/
  pc : Nat
  /-- `VLEN` (R33). -/
  vlen : Nat
  /-- `VSEL_ID` (R34). -/
  vselId : VecSel
  /-- `VBUF` (R60). -/
  vbuf : Memory
  /-- `HS` (R36). -/
  hs : HS
  /-- `BUSY` (R38). -/
  busy : Bool
  /-- `FAULT` (R39). -/
  fault : FaultReg
  /-- `CFG.VSEL`: false is 5 V, true is 3.3 V (R41). -/
  cfgVsel : Bool
  /-- `CFG.RSTMODE`: false is hard reset, true is power cycle (R42). -/
  cfgRstMode : Bool
  /-- `CFG.SYNC_TIMEOUT_US` (R43). -/
  cfgTimeout : BitVec 32
  /-- `TMR` (R46). -/
  tmr : Timer
  /-- `MCNT`, `none` outside a measurement (R47). -/
  mcnt : Option Nat
  /-- The actions the running command still has to take. -/
  todo : List Action
  /-- The result of the last command, register access or refusal; `none` while a command runs. -/
  reply : Option Reply
  /-- The line events so far, oldest first (R15). -/
  trace : List LineEvent
  /-- What the host will do, first thing first. -/
  inbox : List HostInput
  /-- The target's next answers to `sample()`; when there is none, `Config.targetBit` answers. -/
  samples : List Level
  /-- The data line in the next measurement windows; when there is none, `Config.targetEdge` answers. -/
  edges : List EdgeAnswer
  /-- The next draws of a number of poll pulses; when there is none, `Config.pollDraw` answers. -/
  polls : List Nat
deriving DecidableEq, Repr

/-- Why the machine stops with a fault. The block's own faults (R281) are none of these: the block latches them in
`FAULT` and goes on, so they are next states. -/
inductive Fault where
  /-- Raised by a host read of `RDATA` while `RDVALID = 0`: the spec says a model faults it (R30, U3, D31). Safe. -/
  | rdataUndefined
deriving DecidableEq, Repr

/-- Why the machine refuses. The block's own refusal `NotReady` (R288) is none of these: the block answers it and goes
on, so it is a next state. -/
inductive Refusal where
  /-- An instruction that has no meaning yet, raised by its arm of `exec`; no arm raises it. Safe. -/
  | notModelled (mnemonic : String)
  /-- Raised at the start of `Exec` for a vector of `2 ^ PCW` bytes or more, which `VLEN` cannot hold and the spec
  excludes (R10, R33). Safe. -/
  | vectorTooLong
deriving DecidableEq, Repr

/-- No fault recorded: every field 0 (R39, R52, R191). `FAULT.VEC` is then the identity with id 0 (DEDUCED from R290, where
R39 calls it undefined; log entry 7). -/
def FaultReg.clear : FaultReg :=
  { valid := false, cause := .none, phase := false, pc := 0, vec := .vec .init1 }

/-- The machine right after block reset (R52, R320). `RDATA`, `PC`, `VLEN`, `VSEL_ID`, `CFG.VSEL`, `CFG.RSTMODE` and
`PWR_EN` are unspecified there; log entry 5 names the values below. -/
def State.reset : State where
  sclk := false
  sdataOut := false
  sdataOe := true
  xres := false
  pwrEn := false
  rdata := 0x00#8
  rdvalid := false
  rdlog := []
  pc := 0
  vlen := 0
  vselId := .vec .init1
  vbuf := []
  hs := .poweredOff
  busy := false
  fault := FaultReg.clear
  cfgVsel := false
  cfgRstMode := false
  cfgTimeout := 100000#32
  tmr := .idle
  mcnt := none
  todo := []
  reply := none
  trace := []
  inbox := []
  samples := []
  edges := []
  polls := []

end Sys2Proof.Machine
end

