-- ==== Sys2Proof/Machine/Operands.lean ====
section
/-! DEFINITION. Operand forms: the bits of a field in wire order, the byte a read assembles, the wire codes, and the
numeric encodings of the named values (R67, R93, R95, R129, R36, R39). -/

namespace Sys2Proof.Machine

/-- The bits `v[n-1]`, …, `v[0]` of a field, most significant first: the order of `shift_out(n, v)` (R15, R67). -/
def msbBits {n : Nat} (v : BitVec n) : List Level := (List.range n).map fun k => v.getMsbD k

/-- `((r << 1) | b) mod 256`: one step of the byte assembly of `readOp` (R126, R129). -/
def shiftIn (r : Byte) (b : Level) : Byte := (r <<< 1) ||| (BitVec.ofBool b).zeroExtend 8

/-- The byte that samples assemble from zero, the first sample being the most significant (R126). -/
def assembleByte (bits : List Level) : Byte := bits.foldl shiftIn 0x00#8

/-- The wire code of a write to a space: `100` memory, `110` register (R93, R225). -/
def writeCode : Space → Opc
  | .memory => 0b100#3
  | .register => 0b110#3

/-- The wire code of a read from a space: `101` memory, `111` register (R93, R226). -/
def readCode : Space → Opc
  | .memory => 0b101#3
  | .register => 0b111#3

/-- The source's `OpKind` of an instruction as a wire code; the no-op has `000` in the vendor's bit-string (R93). -/
def wireCode : Instr → Opc
  | .nop => 0b000#3
  | .wrmem _ _ => writeCode .memory
  | .rdmem _ _ => readCode .memory
  | .wrreg _ _ => writeCode .register
  | .rdreg _ _ => readCode .register

/-- How many bytes an instruction takes: 1 for a no-op, 3 for a triple (R90). -/
def instrLength : Instr → Nat
  | .nop => 1
  | .wrmem _ _ => 3
  | .rdmem _ _ => 3
  | .wrreg _ _ => 3
  | .rdreg _ _ => 3

/-- The id of a named vector (R152). -/
def vecIdCode : VecId → Nat
  | .init1 => 0
  | .init2 => 1
  | .init3V5 => 2
  | .init3V3 => 3
  | .idSetup => 4
  | .bulkErase => 5
  | .program => 6
  | .verifySetup => 7
  | .eraseBlock => 8

/-- The encoding of `HS` (R36). -/
def hsCode : HS → BitVec 3
  | .poweredOff => 0#3
  | .resetting => 1#3
  | .magicSent => 2#3
  | .init1Acked => 3#3
  | .init2Acked => 4#3
  | .ready => 5#3

/-- The encoding of `FAULT.CAUSE` (R39, R281). -/
def causeCode : FaultCause → BitVec 2
  | .none => 0#2
  | .malformedBytecode => 1#2
  | .syncTimeout => 2#2
  | .illegalOpcode => 3#2

end Sys2Proof.Machine
end

