-- ==== Sys2Proof/Machine/Flags.lean ====
section
/-! DEFINITION. The status bits and the fault records. There are no condition codes (R35). -/

namespace Sys2Proof.Machine

/-- `READY = (HS = Ready and FAULT.VALID = 0)` (R35, R227). -/
def ready (s : State) : Bool := s.hs == .ready && !s.fault.valid

/-- The record of `MalformedBytecode(pc)` in the vector `v` (R155, R281); fields outside the payload are 0 (R290). -/
def malformedFault (pc : Nat) (v : VecSel) : FaultReg :=
  { valid := true, cause := .malformedBytecode, phase := false, pc := pc, vec := v }

/-- The record of `IllegalOpcode(pc)` in the vector `v` (R156, R281). -/
def illegalFault (pc : Nat) (v : VecSel) : FaultReg :=
  { valid := true, cause := .illegalOpcode, phase := false, pc := pc, vec := v }

/-- The record of `SyncTimeout`: `fall` false is the rise phase, true the fall phase (R179, R281). -/
def syncFault (fall : Bool) : FaultReg :=
  { valid := true, cause := .syncTimeout, phase := fall, pc := 0, vec := .vec .init1 }

/-- The register a completed `readOp` writes, with its valid bit (R30, R126). -/
def setReadData (r : Byte) (s : State) : State := { s with rdata := r, rdvalid := true }

end Sys2Proof.Machine
end

