-- ==== Sys2Proof/Machine/Ops.lean ====
section
/-! DEFINITION. The named operations: the vector buffer (R60 to R63), the wire primitives (R15), the measurement
(R175 to R177), the raising of a fault (R290) and the block reset (R320). -/

namespace Sys2Proof.Machine

/-! ## The vector buffer -/

/-- What an address that no cell lists reads as. -/
def unlisted : Byte := 0x00#8

/-- One byte of memory. -/
def Memory.read : Memory → Nat → Byte
  | [], _ => unlisted
  | c :: m, a => if c.1 = a then c.2 else Memory.read m a

/-- The canonical form from address `lo` on: addresses rise from at least `lo`, no cell holds the unlisted byte. -/
def Memory.wfFrom : Nat → Memory → Bool
  | _, [] => true
  | lo, c :: m => decide (lo ≤ c.1) && c.2 != unlisted && Memory.wfFrom (c.1 + 1) m

/-- The canonical form. -/
def Memory.wf (m : Memory) : Bool := Memory.wfFrom 0 m

/-- The bytes of a vector at the addresses from `lo` on. -/
def Memory.ofBytesFrom : Nat → List Byte → Memory
  | _, [] => []
  | lo, b :: bs =>
    if b = unlisted then Memory.ofBytesFrom (lo + 1) bs else (lo, b) :: Memory.ofBytesFrom (lo + 1) bs

/-- The memory that holds a vector from address 0 on: the value `EXEC` takes when it starts (R63). -/
def Memory.ofBytes (bs : List Byte) : Memory := Memory.ofBytesFrom 0 bs

/-- `MemRead(a, 1)`: the byte at `a` for `a < VLEN`; there is no byte at or above `VLEN` (R60, R61). -/
def memRead (a : Nat) (s : State) : Option Byte := if a < s.vlen then some (s.vbuf.read a) else none

/-- The bytes of the vector from `PC` on that a command could take: three, or as many as are left (R61). -/
def fetchBytes (s : State) : List Byte :=
  match memRead s.pc s with
  | none => []
  | some b0 =>
    match memRead (s.pc + 1) s with
    | none => [b0]
    | some b1 =>
      match memRead (s.pc + 2) s with
      | none => [b0, b1]
      | some b2 => [b0, b1, b2]

/-- The bytes of the vector that stand from `PC` to the end of the vector. -/
def bytesLeft (s : State) : List Byte := (List.range (s.vlen - s.pc)).map fun k => s.vbuf.read (s.pc + k)

/-- The start of `Exec(buf)`: `VBUF <- buf; VLEN <- length(buf); PC <- 0; VSEL_ID <-` the buffer's identity (R151). -/
def loadVector (sel : VecSel) (buf : List Byte) (s : State) : State :=
  { s with vbuf := Memory.ofBytes buf, vlen := buf.length, pc := 0, vselId := sel }

/-- `PC <- PC + n` (R32). -/
def advance (n : Nat) (s : State) : State := { s with pc := s.pc + n }

/-! ## The wire primitives (R15) -/

/-- Append one line event to the trace. -/
def emit (e : LineEvent) (s : State) : State := { s with trace := s.trace ++ [e] }

/-- `SCLK <- b` (R22). -/
def setSclk (b : Level) (s : State) : State := { s with sclk := b }

/-- `drive(b)`. -/
def drive (b : Level) (s : State) : State := emit (.d b) { s with sdataOut := b }

/-- `dir_in()`. -/
def dirIn (s : State) : State := emit (.dir false) { s with sdataOe := false }

/-- `dir_out()`. -/
def dirOut (s : State) : State := emit (.dir true) { s with sdataOe := true }

/-- `pulse()`: `SCLK <- 1`, then `SCLK <- 0`. -/
def pulse (s : State) : State := emit .p (setSclk false (setSclk true s))

/-- `pulses(n)`. -/
def pulses : Nat → State → State
  | 0, s => s
  | n + 1, s => pulses n (pulse s)

/-! ## What the target sees (R16) -/

/-- The symbol of a pulse, given the output latch and the direction at that pulse (R16). -/
def pulseSym (out oe : Bool) : Sym := if oe then (if out then .one else .zero) else .z

/-- What the target sees of line events that start with the latch at `out` and the direction at `oe` (R16). -/
def targetViewFrom : Bool → Bool → List LineEvent → List TargetEvent
  | _, _, [] => []
  | _, oe, .d b :: es => targetViewFrom b oe es
  | out, _, .dir o :: es => targetViewFrom out o es
  | out, oe, .p :: es => .p (pulseSym out oe) :: targetViewFrom out oe es
  | out, oe, .s b :: es => .s b :: targetViewFrom out oe es
  | out, oe, .x on :: es => .x on :: targetViewFrom out oe es
  | out, oe, .pw on :: es => .pw on :: targetViewFrom out oe es
  | out, oe, .w _ :: es => targetViewFrom out oe es
  | out, oe, .m l r :: es => .m l r :: targetViewFrom out oe es
  | _, _, .rst :: es => .rst :: targetViewFrom State.reset.sdataOut State.reset.sdataOe es

/-- What the target sees of a trace from reset on. -/
def targetView (es : List LineEvent) : List TargetEvent :=
  targetViewFrom State.reset.sdataOut State.reset.sdataOe es

/-! ## What the target answers (R66) -/

/-- The target's answer to a sample: the script's next answer, else the oracle's on all the target has seen (R66). -/
def targetAnswer (s : State) : Level := s.samples.headD (Config.targetBit (targetView s.trace))

/-- `sample()`: the level the environment presents on SDATA, and the state after (R15, R25). -/
def sample (s : State) : Level × State :=
  (targetAnswer s, emit (.s (targetAnswer s)) { s with samples := s.samples.tail })

/-- `xres(assert)`, `xres(release)`. -/
def setXres (on : Bool) (s : State) : State := emit (.x on) { s with xres := on }

/-- `power(on)`, `power(off)`. -/
def setPower (on : Bool) (s : State) : State := emit (.pw on) { s with pwrEn := on }

/-- `delay(T)`. -/
def delayFor (t : Nat) (s : State) : State := emit (.w t) s

/-- Set data, pulse the clock, once per bit (R121). -/
def shiftBits : List Level → State → State
  | [], s => s
  | b :: bs, s => shiftBits bs (pulse (drive b s))

/-- `shift_out(n, v)`: most significant bit first (R15). -/
def shiftOut {n : Nat} (v : BitVec n) (s : State) : State := shiftBits (msbBits v) s

/-! ## Measurement (R175 to R177) -/

/-- How a window of `timeout` microseconds ends when the line behaves as `e` says: `Ok` at the first instant of the
awaited level if that lies inside the window, `Timeout` if the level is absent for the whole window, either one if it
first appears exactly at the end (R177). -/
def windowResult (timeout : Nat) (e : EdgeAnswer) : MeasResult :=
  match e.first with
  | none => .timeout
  | some t =>
    if t < timeout then .ok t
    else if t = timeout ∧ e.tieOk = true then .ok t
    else .timeout

/-- What the line does in the window that opens now. -/
def edgeAnswer (level : Level) (s : State) : EdgeAnswer := s.edges.headD (Config.targetEdge (targetView s.trace) level)

/-- The timeout of each edge detection in microseconds (R43). -/
def timeoutUs (s : State) : Nat := s.cfgTimeout.toNat

/-- How the window that opens now, waiting for `level`, will end. -/
def measureResult (level : Level) (s : State) : MeasResult := windowResult (timeoutUs s) (edgeAnswer level s)

/-- `measure(level, CFG.SYNC_TIMEOUT_US)`: its line event stands where the window opens. -/
def measure (level : Level) (s : State) : MeasResult × State :=
  (measureResult level s, emit (.m level (measureResult level s)) { s with edges := s.edges.tail })

/-- How long a window lasted: until the level was seen, or the whole timeout. -/
def windowTime (timeout : Nat) : MeasResult → Nat
  | .ok t => t
  | .timeout => timeout

/-! ## Faults and reset -/

/-- `raise F(info)` (R290): the operation stops, `FAULT` takes the record, `BUSY <- 0`, the host's result is the fault;
nothing else changes. There is no return from a fault (R293). -/
def raise (f : FaultReg) (s : State) : State :=
  { s with fault := f, busy := false, todo := [], reply := some (.fault f) }

/-- Every register at its reset value; the unspecified ones take the draw `d` (R52, R320, U13), `PC` and `VLEN` as many of
its bits as they have, `PCW` (R32, R33). The vector buffer, which is no register and which the next `EXEC` replaces, stays;
the trace goes on after the mark `rst`. No result is left: the host gets none for a command that the reset cuts short, and
an earlier one is dropped (DESIGN CHOICE, log entry 28). The assertion and the release of `rst` are this one change (DESIGN
CHOICE, log entry 29). -/
def resetTo (b : Board) (d : ResetDraw) (s : State) : State :=
  { State.reset with
    rdata := d.rdata, pc := d.pc % 2 ^ b.pcw, vlen := d.vlen % 2 ^ b.pcw, vselId := d.vselId
    cfgVsel := d.cfgVsel, cfgRstMode := d.cfgRstMode, pwrEn := d.pwrEn
    vbuf := s.vbuf, trace := s.trace ++ [.rst]
    inbox := s.inbox, samples := s.samples, edges := s.edges, polls := s.polls }

/-- Block reset (R320): the unspecified values are the environment's. -/
def blockReset (b : Board) (s : State) : State := resetTo b (Config.resetDraw s.trace) s

/-- The electrical level on the reset line (R26). -/
def xresLevel (b : Board) (s : State) : Level := if s.xres then b.xresActive else !b.xresActive

/-- The electrical level on the power-enable line, where the board has one (R26). -/
def pwrLevel (b : Board) (s : State) : Option Level :=
  if b.hasPwr then some (if s.pwrEn then b.pwrActive else !b.pwrActive) else none

end Sys2Proof.Machine
end

