-- ==== Sys2Proof/Machine/Serializer.lean ====
section
/-! DEFINITION. The bit serializer: `writeOp`, `readOp`, `writeNoOp` (40_serializer.md R120 to R130). -/

namespace Sys2Proof.Machine

/-- `writeOp(opc, a, v)` (R124). -/
def writeOp (opc : Opc) (a v : Byte) (s : State) : State :=
  pulses Config.trailerPulses (drive true (shiftOut v (shiftOut a (shiftOut opc s))))

/-- The sampling loop of `readOp`: sample, shift the bit in, pulse, `n` times (R126, D6). -/
def sampleLoop : Nat → Byte → State → Byte × State
  | 0, r, s => (r, s)
  | n + 1, r, s => sampleLoop n (shiftIn r (sample s).1) (pulse (sample s).2)

/-- `readOp` up to its sampling loop: opcode, address, turn to input, priming pulses (R125, R126). -/
def readStart (opc : Opc) (a : Byte) (s : State) : State :=
  pulses Config.primePulses (dirIn (shiftOut a (shiftOut opc s)))

/-- `readOp(opc, a)`: the byte and the state after (R126). -/
def readOp (opc : Opc) (a : Byte) (s : State) : Byte × State :=
  let r := sampleLoop Config.readBits 0x00#8 (readStart opc a s)
  (r.1, setReadData r.1 (dirOut (pulses Config.readTailPulses r.2)))

/-- `writeNoOp()` (R127). -/
def writeNoOp (s : State) : State := pulses Config.noopPulses (drive false s)

/-- `emit_result(opc, a, r)`: append a record to the read-result stream (R158). -/
def emitResult (opc : Opc) (a r : Byte) (s : State) : State := { s with rdlog := s.rdlog ++ [ReadRec.mk opc a r] }

/-- `readOp` with its result appended to the read-result stream (R158, R162, R164). -/
def readAndLog (opc : Opc) (a : Byte) (s : State) : State :=
  emitResult opc a (readOp opc a s).1 (readOp opc a s).2

end Sys2Proof.Machine
end

