-- ==== Sys2Proof/Machine/Bytecode.lean ====
section
/-! DEFINITION. The meanings of the five bytecode instructions (41_interpreter.md R160 to R164). The checks that come
before dispatch, truncation and opcode legality, are the interpreter's (`runVector`, R153, R154). -/

namespace Sys2Proof.Machine

/-- `NOP`: `writeNoOp(); PC <- PC + 1` (R160). -/
def execNop (s : State) : Host.Outcome State Fault Refusal := .next (advance 1 (writeNoOp s))

/-- `WRMEM a, v`: `writeOp(0b100, a, v); PC <- PC + 3` (R161). -/
def execWrmem (a v : Byte) (s : State) : Host.Outcome State Fault Refusal :=
  .next (advance 3 (writeOp 0b100#3 a v s))

/-- `RDMEM a`: `r <- readOp(0b101, a); emit_result(0b101, a, r); PC <- PC + 3`; byte 2 is ignored (R162, R96). -/
def execRdmem (a _x : Byte) (s : State) : Host.Outcome State Fault Refusal :=
  .next (advance 3 (readAndLog 0b101#3 a s))

/-- `WRREG a, v`: `writeOp(0b110, a, v); PC <- PC + 3` (R163). -/
def execWrreg (a v : Byte) (s : State) : Host.Outcome State Fault Refusal :=
  .next (advance 3 (writeOp 0b110#3 a v s))

/-- `RDREG a`: `r <- readOp(0b111, a); emit_result(0b111, a, r); PC <- PC + 3`; byte 2 is ignored (R164, R96). -/
def execRdreg (a _x : Byte) (s : State) : Host.Outcome State Fault Refusal :=
  .next (advance 3 (readAndLog 0b111#3 a s))

end Sys2Proof.Machine
end

