-- ==== Sys2Proof/Machine/Dispatch.lean ====
section
/-! DEFINITION. What each instruction does: one arm per constructor of `Instr`, one direct call of its meaning. -/

namespace Sys2Proof.Machine

def exec (i : Instr) (s : State) : Host.Outcome State Fault Refusal :=
  match i with
  | .nop => Sys2Proof.Machine.execNop s
  | .wrmem a v => Sys2Proof.Machine.execWrmem a v s
  | .rdmem a x => Sys2Proof.Machine.execRdmem a x s
  | .wrreg a v => Sys2Proof.Machine.execWrreg a v s
  | .rdreg a x => Sys2Proof.Machine.execRdreg a x s

end Sys2Proof.Machine
end

