-- ==== Sys2Proof/Machine/Poll.lean ====
section
/-! DEFINITION. The wait-and-poll synchronizer and the timer (42_waitpoll.md R170 to R182, 60_exceptions.md R296). -/

namespace Sys2Proof.Machine

/-- `WaitAndPoll()` as the actions of R172. `rise` opens the window before the timer's two expiries make the first poll
pulse (R173); what the windows' ends add is in `riseEnd` and `fallEnd`. -/
def waitAndPoll : List Action :=
  [.dirIn, .startPoll, .rise, .stopPoll, .drive false, .dirOut, .pulses Config.flushPulses]

/-- `start_poll_clock()`: arm the one-shot timer (R173). -/
def startPollClock (s : State) : State := { s with tmr := .armedHigh }

/-- `stop_poll_clock()`: no expiry is pending, `SCLK = 0`, and no measurement is open (R174, R47). -/
def stopPollClock (s : State) : State := { s with tmr := .idle, sclk := false, mcnt := none }

/-- One expiry of the one-shot: the first drives SCLK high and re-arms, the second drives it low and leaves the timer
idle; the two edges are one `P` event (R173, R296, C9). -/
def timerExpiry (s : State) : State :=
  match s.tmr with
  | .idle => s
  | .armedHigh => setSclk true { s with tmr := .armedLow }
  | .armedLow => emit .p (setSclk false { s with tmr := .idle })

/-- The most poll pulses a phase of `us` microseconds can hold: its 20-microsecond periods, rounded up, and at least the
timer's one (R174). -/
def pollBound (us : Nat) : Nat := max 1 ((us + Config.pollPeriodUs - 1) / Config.pollPeriodUs)

/-- How many poll pulses come next: a draw, at most what the bound leaves (R174, U6). -/
def morePolls (bound done : Nat) (s : State) : Nat := min (s.polls.headD (Config.pollDraw s.trace)) (bound - done)

/-- The poll pulses of the rest of a window. -/
def pollPulses (bound done : Nat) (s : State) : State :=
  pulses (morePolls bound done s) { s with polls := s.polls.tail }

/-- The measurement window opens with `MCNT = 0`, and `next` is what ends it. -/
def openWindow (level : Level) (next : MeasResult → List Action) (s : State) : State :=
  { (measure level s).2 with mcnt := some 0, todo := next (measureResult level s) ++ s.todo }

/-- The rise window opens; inside it the timer expires twice (R173, R175). -/
def riseOpen (s : State) : State := openWindow true (fun r => [.timer, .timer, .riseEnd r]) s

/-- The rise window ends: the poll train runs until then, and the fall phase follows, or `SyncTimeout(rise)` (R172, R179). -/
def riseClose (r : MeasResult) (s : State) : State :=
  let us := windowTime (timeoutUs s) r
  let n := morePolls (pollBound us) 1 s
  let s1 := { pollPulses (pollBound us) 1 s with mcnt := some us }
  match r with
  | .ok t => { s1 with todo := .fall t (1 + n) :: s1.todo }
  | .timeout => raise (syncFault false) (stopPollClock s1)

/-- The fall window opens at the end of the rise phase, with a full timeout of its own (R176). -/
def fallOpen (t1 : Nat) (k1 : Nat) (s : State) : State := openWindow false (fun r => [.fallEnd t1 k1 r]) s

/-- The fall window ends: success goes on, or `SyncTimeout(fall)` (R172, R179). -/
def fallClose (t1 : Nat) (k1 : Nat) (r : MeasResult) (s : State) : State :=
  let us := windowTime (timeoutUs s) r
  let s1 := { pollPulses (pollBound (t1 + us)) k1 s with mcnt := some us }
  match r with
  | .ok _ => s1
  | .timeout => raise (syncFault true) (stopPollClock s1)

end Sys2Proof.Machine
end

