-- ==== Sys2Proof/Machine/Handshake.lean ====
section
/-! DEFINITION. The reset/handshake state machine (43_handshake.md R190 to R205). -/

namespace Sys2Proof.Machine

/-- `SendMagic()` (R199). -/
def sendMagicProgram : List Action := [.dirOut, .magic, .setHs .magicSent]

/-- `HardReset()` (R193). -/
def hardResetProgram : List Action :=
  [.xres true, .setHs .resetting, .delay .xresHold, .xres false, .delay .xresGap, .xres true, .delay .xresBrief,
    .xres false, .delay .xresToMagic] ++ sendMagicProgram

/-- `PowerCycle()` (R195, R197, R198). -/
def powerCycleProgram : List Action :=
  [.power false, .delay .pwrOff, .xres true, .power true, .setHs .resetting, .delay .pwrRst, .xres false, .dirIn,
    .detect true, .detect false] ++ sendMagicProgram

/-- The common tail (R196). -/
def commonTail : List Action :=
  [.load (.id .init1), .run] ++ waitAndPoll ++ [.setHs .init1Acked] ++
  [.load (.id .init2), .run] ++ waitAndPoll ++ [.setHs .init2Acked] ++
  [.loadInit3, .run, .setHs .ready, .finish]

/-- `Acquire()` after its acceptance: the path that `CFG.RSTMODE` selects, then the tail (R192, R196). -/
def acquireProgram (powerPath : Bool) : List Action :=
  (if powerPath then powerCycleProgram else hardResetProgram) ++ commonTail

/-- The 22 bits of the magic pattern, `MAGIC[0]` first (R199). -/
def sendMagic (b : Board) (s : State) : State := shiftBits b.magic.toList s

/-- The Init-Vector-3 that `CFG.VSEL` selects (R200, R41). -/
def init3Id (s : State) : VecId := if s.cfgVsel then .init3V3 else .init3V5

/-- One `measure` of the power-up detection: no poll clock, no flush; a timeout is `SyncTimeout` of its phase (R198). -/
def detectPulse (level : Level) (s : State) : State :=
  match (measure level s).1 with
  | .ok _ => (measure level s).2
  | .timeout => raise (syncFault (!level)) (measure level s).2

end Sys2Proof.Machine
end

