-- ==== Sys2Proof/WellFormed.lean ====
section
/-! DEFINITION. The checks on instructions, vectors, configuration writes and boards. -/

namespace Sys2Proof

/-- Every operand value of every instruction is legal: all 256 addresses and all 256 values (R161), and any byte 2 of a
read triple (R96). The widths are in the types, so no ill-formed instruction can be written down. -/
def Instr.wf : Instr → Bool
  | .nop => true
  | .wrmem _ _ => true
  | .rdmem _ _ => true
  | .wrreg _ _ => true
  | .rdreg _ _ => true

/-- The form an assembler should emit: byte 2 of a read triple is `00` (R96). -/
def Instr.canonical : Instr → Bool
  | .nop => true
  | .wrmem _ _ => true
  | .rdmem _ x => x == 0x00#8
  | .wrreg _ _ => true
  | .rdreg _ x => x == 0x00#8

/-- A buffer is well-formed bytecode when it decodes without error (R98 to R100). -/
def vectorWf (buf : List Byte) : Bool :=
  match decodeVector buf with
  | .ok _ => true
  | .malformed _ => false
  | .illegal _ _ => false

/-- `CFG.SYNC_TIMEOUT_US` may hold any 32-bit value but 0 (R43). -/
def timeoutLegal (t : BitVec 32) : Bool := t != 0#32

/-- All nine ids, in the order of R152. -/
def allVecIds : List VecId :=
  [.init1, .init2, .init3V5, .init3V3, .idSetup, .bulkErase, .program, .verifySetup, .eraseBlock]

/-- A board's vectors fit its program counter (R10, R33). -/
def boardVectorsFit (b : Board) : Bool := allVecIds.all fun id => (b.vec id).length < 2 ^ b.pcw

/-- Every vector of a board decodes: the premise that claims about `ACQUIRE` take (R152, U23). -/
def boardVectorsDecode (b : Board) : Bool := allVecIds.all fun id => vectorWf (b.vec id)

/-- The bank-select sequence of one bank is two or three register writes, one of which carries the bank (R243). To carry
it is to have it as the written value, so no sequence of a bank above 255 is well-formed (DESIGN CHOICE, log entry 25). -/
def setBankSeqWf (b : Board) (bank : Nat) : Bool :=
  ((b.setBankSeq bank).length == 2 || (b.setBankSeq bank).length == 3) &&
    (b.setBankSeq bank).any fun w => w.2.toNat == bank

end Sys2Proof
end

