-- ==== Sys2Proof/Machine/HostPort.lean ====
section
/-! DEFINITION. The command port: accepting and refusing host commands, configuration writes, register reads, and
completion (44_host_interface.md R220 to R231, 10_state.md R45). -/

namespace Sys2Proof.Machine

/-- Acceptance: `BUSY <- 1`, and the command's actions are to be taken (R221). -/
def startCommand (prog : List Action) (s : State) : State := { s with busy := true, reply := none, todo := prog }

/-- `Refused(NotReady)`: no line event and no register changes (R288). -/
def refuse (s : State) : State := { s with reply := some .refused }

/-- Completion: `BUSY <- 0` and the result (R221). -/
def complete (r : Reply) (s : State) : State := { s with busy := false, todo := [], reply := some r }

/-- The start of `ACQUIRE`: every `FAULT` field 0, `RDLOG` empty, `HS <- PoweredOff` (R191). -/
def acquireStart (s : State) : State := { s with fault := FaultReg.clear, rdlog := [], hs := .poweredOff }

/-- A host command given while `BUSY = 0` (R222 to R227). The power path without the line is refused (R192). -/
def acceptCommand (b : Board) (c : HostCmd) (s : State) : State :=
  match c with
  | .acquire =>
    if s.cfgRstMode && !b.hasPwr then refuse s
    else startCommand (acquireProgram s.cfgRstMode) (acquireStart s)
  | .exec src =>
    if ready s then startCommand [.load src, .run, .finish] { s with rdlog := [] } else refuse s
  | .waitpoll => if ready s then startCommand (waitAndPoll ++ [.finish]) s else refuse s
  | .wrop sp a v => if ready s then startCommand [.wrop sp a v, .finish] s else refuse s
  | .rdop sp a => if ready s then startCommand [.rdop sp a, .finishRead] { s with rdlog := [] } else refuse s

/-- A write of `CFG.SYNC_TIMEOUT_US`; the value 0 is refused and nothing changes (R43, U19). -/
def writeTimeout (t : BitVec 32) (s : State) : State :=
  if timeoutLegal t then { s with cfgTimeout := t, reply := some .done } else { s with reply := some .cfgRefused }

/-- The configuration registers, which the host reaches only while `BUSY = 0` (R45). -/
def isConfigReg : HostReg → Bool
  | .hs => false
  | .fault => false
  | .rdata => false
  | .rdvalid => false
  | .rdlog => false
  | .busy => false
  | .pc => false
  | .cfgVsel => true
  | .cfgRstMode => true
  | .cfgTimeout => true

/-- The value of a register; `RDATA` has none while `RDVALID = 0` (R30). -/
def hostRead (r : HostReg) (s : State) : Option RegVal :=
  match r with
  | .hs => some (.hs s.hs)
  | .fault => some (.fault s.fault)
  | .rdata => if s.rdvalid then some (.rdata s.rdata) else none
  | .rdvalid => some (.rdvalid s.rdvalid)
  | .rdlog => some (.rdlog s.rdlog)
  | .busy => some (.busy s.busy)
  | .pc => some (.pc s.pc)
  | .cfgVsel => some (.cfgVsel s.cfgVsel)
  | .cfgRstMode => some (.cfgRstMode s.cfgRstMode)
  | .cfgTimeout => some (.cfgTimeout s.cfgTimeout)

/-- A register read: the value is the answer and nothing else changes; a read of `RDATA` while `RDVALID = 0` faults
(R30, U3). -/
def serveRead (r : HostReg) (s : State) : Host.Outcome State Fault Refusal :=
  match hostRead r s with
  | some v => .next { s with reply := some (.value v) }
  | none => .fault .rdataUndefined

/-- Whether the block takes the input now: a reset and a `wait` always, a read of a status register always, everything else
only while `BUSY = 0` (R45, R221, R320). -/
def servedNow (s : State) : HostInput → Bool
  | .cmd _ => !s.busy
  | .setVsel _ => !s.busy
  | .setRstMode _ => !s.busy
  | .setTimeout _ => !s.busy
  | .read r => !s.busy || !isConfigReg r
  | .reset _ => true
  | .wait => true

/-- No input is taken in this step. -/
def noInput (s : State) : Bool :=
  match s.inbox with
  | [] => true
  | i :: _ => !servedNow s i

end Sys2Proof.Machine
end

