-- ==== Sys2Proof/Machine/Sequencer.lean ====
section
/-! DEFINITION. The sequencer: one action of the running command a step, the interpreter's loop (R153), the inputs from
outside, and the step of a machine built for a board. -/

namespace Sys2Proof.Machine

/-- The bytes of a vector operand: an embedded constant or the host's sequence (R223). -/
def srcBytes (b : Board) : VecSrc → List Byte
  | .id v => b.vec v
  | .bytes bs => bs

/-- The identity of a vector operand (R34). -/
def srcSel : VecSrc → VecSel
  | .id v => .vec v
  | .bytes _ => .hostbuf

/-- The start of `Exec` (R151); `VLEN` holds less than `2 ^ PCW` (R33). -/
def startExec (b : Board) (src : VecSrc) (s : State) : Host.Outcome State Fault Refusal :=
  if (srcBytes b src).length < 2 ^ b.pcw then .next (loadVector (srcSel src) (srcBytes b src) s)
  else .refused .vectorTooLong

/-- One turn of the loop of `Exec` (R153): the run is complete at `PC = VLEN`, a truncated triple raises
`MalformedBytecode` before an illegal first byte raises `IllegalOpcode`, and an instruction is dispatched. `rest` is what
follows the run. -/
def runVector (rest : List Action) (s : State) : Host.Outcome State Fault Refusal :=
  match decodeOne (fetchBytes s) with
  | .instr i _ => exec i s
  | .endOfVector => .next { s with todo := rest }
  | .malformed => .next (raise (malformedFault s.pc s.vselId) s)
  | .illegal _ => .next (raise (illegalFault s.pc s.vselId) s)

/-- One action, `s.todo` being what follows it. -/
def doAction (b : Board) (a : Action) (s : State) : Host.Outcome State Fault Refusal :=
  match a with
  | .setHs h => .next { s with hs := h }
  | .drive l => .next (drive l s)
  | .dirIn => .next (dirIn s)
  | .dirOut => .next (dirOut s)
  | .pulses n => .next (pulses n s)
  | .xres on => .next (setXres on s)
  | .power on => .next (setPower on s)
  | .delay d => .next (delayFor (b.delay d) s)
  | .magic => .next (sendMagic b s)
  | .load src => startExec b src s
  | .loadInit3 => startExec b (.id (init3Id s)) s
  | .run => runVector s.todo { s with todo := .run :: s.todo }
  | .startPoll => .next (startPollClock s)
  | .rise => .next (riseOpen s)
  | .timer => .next (timerExpiry s)
  | .riseEnd r => .next (riseClose r s)
  | .fall t1 k1 => .next (fallOpen t1 k1 s)
  | .fallEnd t1 k1 r => .next (fallClose t1 k1 r s)
  | .stopPoll => .next (stopPollClock s)
  | .detect l => .next (detectPulse l s)
  | .wrop sp a v => .next (writeOp (writeCode sp) a v s)
  | .rdop sp a => .next (readAndLog (readCode sp) a s)
  | .finish => .next (complete .done s)
  | .finishRead => .next (complete (.doneByte s.rdata) s)

/-- The next action of the running command; a command with none left is complete. -/
def runAction (b : Board) (s : State) : Host.Outcome State Fault Refusal :=
  match s.todo with
  | [] => .next (complete .done s)
  | a :: rest => doAction b a { s with todo := rest }

/-- The trace of `s` with the first `cut` line events that `t` has beyond it (R322). -/
def cutTrace (cut : Nat) (s t : State) : List LineEvent := s.trace ++ (t.trace.drop s.trace.length).take cut

/-- Block reset while the block may be busy: the operation in progress gets `cut` of its line events out, then every
register takes its reset value (R320, R322). The events that got out stand as they are: the `M` event of a window that the
reset cuts short stays with the result the window would have had (DESIGN CHOICE, log entry 26). -/
def resetInput (b : Board) (cut : Nat) (s : State) : State :=
  if s.busy then
    match runAction b s with
    | .next t => blockReset b { t with trace := cutTrace cut s t }
    | .fault _ => blockReset b s
    | .refused _ => blockReset b s
  else blockReset b s

/-- The block on its own for a step: the running command's next action, or it waits (R321). -/
def runOwn (b : Board) (s : State) : Host.Outcome State Fault Refusal := if s.busy then runAction b s else .next s

/-- One input from outside, already taken off the inbox. -/
def serveInput (b : Board) (i : HostInput) (s : State) : Host.Outcome State Fault Refusal :=
  match i with
  | .cmd c => .next (acceptCommand b c s)
  | .setVsel v => .next { s with cfgVsel := v, reply := some .done }
  | .setRstMode v => .next { s with cfgRstMode := v, reply := some .done }
  | .setTimeout t => .next (writeTimeout t s)
  | .read r => serveRead r s
  | .reset cut => .next (resetInput b cut s)
  | .wait => runOwn b s

/-- The step of a machine built for the board `b`: an input that can be taken now, else the running command's next
action, else the block waits (R221, R321). An input that can be taken is taken before the running command's next action;
`wait` inputs before it let the command go on that far (DESIGN CHOICE, log entry 30). -/
def stepOn (b : Board) (s : State) : Host.Outcome State Fault Refusal :=
  match s.inbox with
  | [] => runOwn b s
  | i :: rest => if servedNow s i then serveInput b i { s with inbox := rest } else runAction b s

/-- `n` steps of the machine built for `b`, stopping at the first fault or refusal. -/
def runOn (b : Board) : Nat → State → Host.Outcome State Fault Refusal
  | 0, s => .next s
  | n + 1, s =>
    match stepOn b s with
    | .next t => runOn b n t
    | .fault f => .fault f
    | .refused r => .refused r

/-- The instructions of a vector one after the other (R150). -/
def execAll : List Instr → State → Host.Outcome State Fault Refusal
  | [], s => .next s
  | i :: is, s =>
    match exec i s with
    | .next t => execAll is t
    | .fault f => .fault f
    | .refused r => .refused r

/-- `s` at the point where the interpreter fetches its next command from the vector `bs`: as `EXEC` of that host byte
sequence leaves the block (R223, R151), with no input waiting. -/
def withVector (bs : List Byte) (s : State) : State :=
  { loadVector .hostbuf bs s with
    busy := true, todo := [.run, .finish], hs := .ready, fault := FaultReg.clear, inbox := [] }

/-- `s` with the instruction whose bits are `w` stored where the next step fetches it. -/
def withWord (s : State) (nbits w : Nat) : State := withVector (tableBytes nbits w) s

end Sys2Proof.Machine
end

