-- ==== Sys2Proof/Machine/Step.lean ====
section
/-! DEFINITION. One step of the machine, and the placing of an instruction where the step fetches it. -/

namespace Sys2Proof.Machine

/-- One step: that of the machine built for the one board of this row (R10). -/
def step (s : State) : Host.Outcome State Fault Refusal := stepOn Config.board s

/-- `s` with the instruction whose bits are `w` (bit 0 the least significant bit of byte 0, the bits from `nbits` on
zero) stored where `step` fetches its next instruction. -/
def State.withFetchWord (s : State) (nbits w : Nat) : State := withWord s nbits w

end Sys2Proof.Machine
end

