-- ==== Sys2Proof/Machine/Compiler.lean ====
section
/-! DEFINITION. The offline vector compiler and the mnemonic text of an instruction (45_vector_compiler.md R270 to R277).
It runs outside the block and no step uses it (R6). -/

namespace Sys2Proof.Machine

/-- What a vector's text compiles to (R272, R276). The last two are the offline tool's own failures on text the spec
does not define it on (R271, U17). -/
inductive Compiled where
  | ok (is : List Instr)
  | unrecognizedOpcode
  | badLength
  | badCharacter
deriving DecidableEq, Repr

/-- The number a run of binary digits spells, most significant first, from `n` on. -/
def binaryFrom : Nat → List Char → Option Nat
  | n, [] => some n
  | n, c :: cs => if c = '0' then binaryFrom (2 * n) cs else if c = '1' then binaryFrom (2 * n + 1) cs else none

/-- The eight digits from position `at` of a group, as a byte (R273). -/
def byteAt (pos : Nat) (g : List Char) : Option Byte :=
  (binaryFrom 0 ((g.drop pos).take 8)).map fun n => BitVec.ofNat 8 n

/-- Put a command before the compiled rest. -/
def consCompiled (i : Instr) : Compiled → Compiled
  | .ok is => .ok (i :: is)
  | .unrecognizedOpcode => .unrecognizedOpcode
  | .badLength => .badLength
  | .badCharacter => .badCharacter

/-- One 22-character group (R272 to R275): the opcode is at positions 0 to 2, the address at 3 to 10 for every triple,
a write's value at 11 to 18, and the value of a read is 0. -/
def compileGroup (g : List Char) : Compiled :=
  match binaryFrom 0 (g.take 3) with
  | none => .badCharacter
  | some 0 => .ok [.nop]
  | some 4 =>
    match byteAt 3 g, byteAt 11 g with
    | some a, some v => .ok [.wrmem a v]
    | _, _ => .badCharacter
  | some 5 =>
    match byteAt 3 g with
    | some a => .ok [.rdmem a 0x00#8]
    | none => .badCharacter
  | some 6 =>
    match byteAt 3 g, byteAt 11 g with
    | some a, some v => .ok [.wrreg a v]
    | _, _ => .badCharacter
  | some 7 =>
    match byteAt 3 g with
    | some a => .ok [.rdreg a 0x00#8]
    | none => .badCharacter
  | some _ => .unrecognizedOpcode

/-- The first `n` groups of a text, in order. -/
def compileGroups : Nat → List Char → Compiled
  | 0, _ => .ok []
  | n + 1, cs =>
    match compileGroup (cs.take 22) with
    | .ok [i] => consCompiled i (compileGroups n (cs.drop 22))
    | other => other

/-- A vector's text: white space is stripped, then each 22 characters are one command (R271). The spec does not say which
characters are white space; here they are those of `Char.isWhitespace`, the space, the tab, the carriage return and the
line feed (DESIGN CHOICE, log entry 16). -/
def compileText (text : List Char) : Compiled :=
  let cs := text.filter fun c => !c.isWhitespace
  if cs.length % 22 = 0 then compileGroups (cs.length / 22) cs else .badLength

/-- The characters of bits in the vendor's text. -/
def bitChars (bits : List Level) : List Char := bits.map fun b => if b then '1' else '0'

/-- One hexadecimal digit. -/
def hexDigit (n : Nat) : Char := if n < 10 then Char.ofNat (48 + n) else Char.ofNat (55 + n)

/-- A byte as two hexadecimal digits (R277). -/
def hexByte (b : Byte) : List Char := [hexDigit (b.toNat / 16), hexDigit (b.toNat % 16)]

/-- The mnemonic text of an instruction: `NOP`, `WRMEM aa, vv`, `RDMEM aa`, `WRREG aa, vv`, `RDREG aa` (R277). -/
def mnemonicText : Instr → List Char
  | .nop => ['N', 'O', 'P']
  | .wrmem a v => ['W', 'R', 'M', 'E', 'M', ' '] ++ hexByte a ++ [',', ' '] ++ hexByte v
  | .rdmem a _ => ['R', 'D', 'M', 'E', 'M', ' '] ++ hexByte a
  | .wrreg a v => ['W', 'R', 'R', 'E', 'G', ' '] ++ hexByte a ++ [',', ' '] ++ hexByte v
  | .rdreg a _ => ['R', 'D', 'R', 'E', 'G', ' '] ++ hexByte a

end Sys2Proof.Machine
end

