-- ==== Sys2Proof/Machine/Orchestrator.lean ====
section
/-! DEFINITION. The host's contract: the flash orchestrator as the command sequences it issues (44_host_interface.md
R240 to R259). It is software around the block and no part of `State` (R5). -/

namespace Sys2Proof.Machine

/-- The stage at which a status code was not zero (R252, R287). -/
inductive Stage where
  | read | erase | program
deriving DecidableEq, Repr

/-- How a host operation ends (R240, R256). `blockEnded` returns the fault or refusal of one of its commands. -/
inductive HostResult where
  | ok
  | siliconId (hi lo : Byte)
  | bytes (bs : List Byte)
  | byte (v : Byte)
  | blockEnded (r : Reply)
  | protocolFault (s : Stage)
  | verifyMismatch (bank blk byte : Nat)
  | invalidImageSize
deriving DecidableEq, Repr

/-- The host's variables (R246, R49): the active bank, and the block index of the loop. Each is `none` until the host has
recorded a first one, since the spec gives no first value (log entry 25). -/
structure HostVars where
  curBank : Option Nat
  curBlk : Option Nat
deriving DecidableEq, Repr

/-- The host's variables once `c` is given. `ACQUIRE` begins a session, and of the host's variables only the active bank
survives across sessions (R49, R230); every other command leaves them. -/
def varsAfter (c : HostCmd) (h : HostVars) : HostVars :=
  match c with
  | .acquire => { h with curBlk := none }
  | .exec _ => h
  | .waitpoll => h
  | .wrop _ _ _ => h
  | .rdop _ _ => h

/-- A host operation: it is over, or it gives a command and goes on with the command's result, or it records a variable. -/
inductive HostProg where
  | ret (r : HostResult)
  | ask (c : HostCmd) (k : Reply → HostProg)
  /-- `cur_bank <- bank` (R243). -/
  | setCurBank (bank : Nat) (k : HostProg)
  /-- The loop's block index takes its next value (R246). -/
  | setCurBlk (blk : Nat) (k : HostProg)

/-- Give a command and go on if it ends `Done`; a fault or a refusal ends the operation (R240). -/
def must (c : HostCmd) (k : HostProg) : HostProg :=
  .ask c fun r => if r = .done then k else .ret (.blockEnded r)

/-- Begin a session: `ACQUIRE`, and `Done` before any other command (R229, R230). -/
def beginSession (k : HostProg) : HostProg := must .acquire k

/-- Read a byte of the target's memory and go on with it. -/
def readByte (a : Byte) (k : Byte → HostProg) : HostProg :=
  .ask (.rdop .memory a) fun r => match r with
    | .doneByte v => k v
    | .done => .ret (.blockEnded .done)
    | .fault f => .ret (.blockEnded (.fault f))
    | .refused => .ret (.blockEnded .refused)
    | .cfgRefused => .ret (.blockEnded .cfgRefused)
    | .value v => .ret (.blockEnded (.value v))

/-- Execute a vector that ends in an internal target operation, and wait for it (R231). -/
def execAndWait (id : VecId) (k : HostProg) : HostProg := must (.exec (.id id)) (must .waitpoll k)

/-- `readSiliconId()`: high byte first (R241). -/
def readSiliconId (b : Board) : HostProg :=
  execAndWait .idSetup (readByte b.idAddrHi fun hi => readByte b.idAddrLo fun lo => .ret (.siliconId hi lo))

/-- `bulkErase()` (R242). -/
def bulkErase (k : HostProg) : HostProg := execAndWait .bulkErase k

/-- `setBank(bank)`: the register writes of `SETBANK_SEQ`, then `cur_bank <- bank` (R243). The bank is recorded after the
last write has ended `Done`, since the spec gives the order of the two in no words (DESIGN CHOICE, log entry 25). -/
def setBank (b : Board) (bank : Nat) (k : HostProg) : HostProg :=
  (b.setBankSeq bank).foldr (fun w k => must (.wrop .register w.1 w.2) k) (.setCurBank bank k)

/-- `setBlock(blk)` (R244). For an index above 127, which R244 rules out and no loop here gives, the low 8 bits are sent
(DESIGN CHOICE, log entry 31). -/
def setBlock (b : Board) (blk : Nat) (k : HostProg) : HostProg :=
  must (.wrop .memory b.blockSelAddr (BitVec.ofNat 8 blk)) k

/-- `programBlock()` (R245). -/
def programBlock (k : HostProg) : HostProg := execAndWait .program k

/-- `eraseBlock()` (R248). -/
def eraseBlock (k : HostProg) : HostProg := execAndWait .eraseBlock k

/-- The staging window's address of offset `i`: `0x80 | i` (R249). For an offset above 63, which R249 rules out, the low 8
bits are taken (DESIGN CHOICE, log entry 31). -/
def bufAddr (i : Nat) : Byte := Config.bufBase ||| BitVec.ofNat 8 i

/-- Stage bytes at ascending addresses from offset `i` on (R249). -/
def stageFrom : Nat → List Byte → HostProg → HostProg
  | _, [], k => k
  | i, d :: ds, k => must (.wrop .memory (bufAddr i) d) (stageFrom (i + 1) ds k)

/-- Stage a block (R249). -/
def stage (ds : List Byte) (k : HostProg) : HostProg := stageFrom 0 ds k

/-- Read `n` bytes of the window at ascending addresses from offset `i` on (R247). -/
def readFrom : Nat → Nat → List Byte → (List Byte → HostProg) → HostProg
  | 0, _, got, k => k got
  | n + 1, i, got, k => readByte (bufAddr i) fun v => readFrom n (i + 1) (got ++ [v]) k

/-- `verifySetupAndRead()` (R247). -/
def verifySetupAndRead (k : List Byte → HostProg) : HostProg :=
  execAndWait .verifySetup (readFrom Config.blockBytes 0 [] k)

/-- `status()` (R253). -/
def status (k : Byte → HostProg) : HostProg := readByte Config.statusAddr k

/-- Go on if the status is zero, else fail with the stage (R252). -/
def checkStatus (st : Stage) (k : HostProg) : HostProg :=
  status fun v => if v = 0x00#8 then k else .ret (.protocolFault st)

/-- The bytes of block `blk` of bank `bank` of an image (R254). -/
def imageBlock (image : List Byte) (bank blk : Nat) : List Byte :=
  (image.drop (bank * Config.bankBytes + blk * Config.blockBytes)).take Config.blockBytes

/-- The index of the first byte in which a block differs from what it should be (R251). -/
def firstMismatch : Nat → List Byte → List Byte → Option Nat
  | _, [], _ => none
  | _, _ :: _, [] => none
  | i, x :: xs, y :: ys => if x = y then firstMismatch (i + 1) xs ys else some i

/-- A body for each bank of an image, in order. -/
def forBanks (image : List Byte) (body : Nat → HostProg → HostProg) (k : HostProg) : HostProg :=
  (List.range (image.length / Config.bankBytes)).foldr body k

/-- A body for each block of a bank, in order, the block index recorded before each (R246). -/
def forBlocks (body : Nat → HostProg → HostProg) (k : HostProg) : HostProg :=
  (List.range Config.blocksPerBank).foldr (fun blk kk => .setCurBlk blk (body blk kk)) k

/-- The operation on images of a whole number of banks, and `InvalidImageSize` before any command on others (R255). -/
def wholeBanks (image : List Byte) (op : HostProg) : HostProg :=
  if image.length % Config.bankBytes ≠ 0 then .ret .invalidImageSize else op

/-- `program(image)` (R250). -/
def programImage (b : Board) (image : List Byte) : HostProg :=
  wholeBanks image <| bulkErase <| forBanks image (fun bank kb =>
    setBank b bank <| forBlocks (fun blk kk =>
      stage (imageBlock image bank blk) <| setBlock b blk <| programBlock kk) kb) (.ret .ok)

/-- `verify(image)`: it fails at the first mismatch (R251, C3). -/
def verifyImage (b : Board) (image : List Byte) : HostProg :=
  wholeBanks image <| forBanks image (fun bank kb =>
    setBank b bank <| forBlocks (fun blk kk =>
      setBlock b blk <| verifySetupAndRead fun buf =>
        match firstMismatch 0 buf (imageBlock image bank blk) with
        | some i => .ret (.verifyMismatch bank blk i)
        | none => kk) kb) (.ret .ok)

/-- What `patch` does with one block (R252). -/
def patchBlock (b : Board) (want : List Byte) (blk : Nat) (k : HostProg) : HostProg :=
  setBlock b blk <| verifySetupAndRead fun buf => checkStatus .read <|
    if buf = want then k
    else eraseBlock <| checkStatus .erase <| stage want <| setBlock b blk <| programBlock <| checkStatus .program k

/-- `patch(image)` (R252). -/
def patchImage (b : Board) (image : List Byte) : HostProg :=
  wholeBanks image <| forBanks image (fun bank kb =>
    setBank b bank <| forBlocks (fun blk kk => patchBlock b (imageBlock image bank blk) blk kk) kb) (.ret .ok)

/-- What a host operation leaves: the commands it gave, in order, its result, the host's variables, of which only the
active bank outlasts the session (R230), and the device. -/
structure HostRun (σ : Type) where
  cmds : List HostCmd
  result : HostResult
  vars : HostVars
  dev : σ
deriving DecidableEq, Repr

/-- A host operation that starts with the variables `h`, against a device that answers commands. -/
def runHost {σ : Type} (dev : σ → HostCmd → Reply × σ) : HostProg → HostVars → σ → HostRun σ
  | .ret r, h, d => { cmds := [], result := r, vars := h, dev := d }
  | .ask c k, h, d =>
    let a := dev d c
    let out := runHost dev (k a.1) (varsAfter c h) a.2
    { out with cmds := c :: out.cmds }
  | .setCurBank bank k, h, d => runHost dev k { h with curBank := some bank } d
  | .setCurBlk blk k, h, d => runHost dev k { h with curBlk := some blk } d

/-- Steps of the machine until no command runs, at most `fuel` of them; `none` where it stops or needs more. -/
def runUntilIdle (b : Board) : Nat → State → Option State
  | 0, _ => none
  | n + 1, s =>
    match stepOn b s with
    | .next t => if t.busy then runUntilIdle b n t else some t
    | .fault _ => none
    | .refused _ => none

/-- A host command given to an idle block and run to its end. -/
def giveCommand (b : Board) (fuel : Nat) (c : HostCmd) (s : State) : Option State :=
  runUntilIdle b fuel { s with inbox := [.cmd c] }

end Sys2Proof.Machine
end

