-- ==== Sys2Proof/Machine/Observe.lean ====
section
/-! DEFINITION. What a target sees of a trace: the clocked string and the counts of events (R16, R102, R128). -/

namespace Sys2Proof.Machine

/-- The clocked string of a list of line events that starts with the latch at `out` and the direction at `oe`. -/
def clockedFrom : Bool → Bool → List LineEvent → List Sym
  | _, _, [] => []
  | _, oe, .d b :: es => clockedFrom b oe es
  | out, _, .dir o :: es => clockedFrom out o es
  | out, oe, .p :: es => pulseSym out oe :: clockedFrom out oe es
  | out, oe, .s _ :: es => clockedFrom out oe es
  | out, oe, .x _ :: es => clockedFrom out oe es
  | out, oe, .pw _ :: es => clockedFrom out oe es
  | out, oe, .w _ :: es => clockedFrom out oe es
  | out, oe, .m _ _ :: es => clockedFrom out oe es
  | _, _, .rst :: es => clockedFrom State.reset.sdataOut State.reset.sdataOe es

/-- Two traces that are the same to the target (R16): the same clocked string and the same `S`, `M`, `X` and `PW` events,
interleaved with the pulses in the same way. -/
def SameToTarget (es es' : List LineEvent) : Prop := targetView es = targetView es'

/-- The symbol of a pulse the target sees; the other events have none. -/
def eventSym : TargetEvent → Option Sym
  | .p y => some y
  | .s _ => none
  | .m _ _ => none
  | .x _ => none
  | .pw _ => none
  | .rst => none

/-- The line events a state's trace has beyond those of an earlier state. -/
def newEvents (s t : State) : List LineEvent := t.trace.drop s.trace.length

/-- The clocked string between two states. -/
def clockedBetween (s t : State) : List Sym := clockedFrom s.sdataOut s.sdataOe (newEvents s t)

/-- How many clock pulses a list of line events holds. -/
def pulseCount (es : List LineEvent) : Nat := es.count .p

/-- The samples a list of line events holds, in order. -/
def samplesIn (es : List LineEvent) : List Level :=
  es.filterMap fun e => match e with
    | .s b => some b
    | _ => none

/-- Driven levels as symbols. -/
def drivenSyms (bits : List Level) : List Sym := bits.map fun b => pulseSym b true

/-- The clocked string of each instruction's frame (R102): `o`, `a`, `v` bits, trailer, or undriven pulses. -/
def frameOf : Instr → List Sym
  | .nop => List.replicate 22 .zero
  | .wrmem a v => drivenSyms (msbBits 0b100#3 ++ msbBits a ++ msbBits v) ++ List.replicate 3 .one
  | .rdmem a _ => drivenSyms (msbBits 0b101#3 ++ msbBits a) ++ List.replicate 11 .z
  | .wrreg a v => drivenSyms (msbBits 0b110#3 ++ msbBits a ++ msbBits v) ++ List.replicate 3 .one
  | .rdreg a _ => drivenSyms (msbBits 0b111#3 ++ msbBits a) ++ List.replicate 11 .z

/-- The clocked string of a vector: the frames of its commands in order (R167, R205). -/
def framesOf : List Instr → List Sym
  | [] => []
  | i :: is => frameOf i ++ framesOf is

/-- How many of a vector's commands are reads. -/
def readCount : List Instr → Nat
  | [] => 0
  | .nop :: is => readCount is
  | .wrmem _ _ :: is => readCount is
  | .rdmem _ _ :: is => readCount is + 1
  | .wrreg _ _ :: is => readCount is
  | .rdreg _ _ :: is => readCount is + 1

/-- The line events that shift bits out: a `D` and a `P` for each (R121). -/
def bitEvents : List Level → List LineEvent
  | [] => []
  | b :: bs => .d b :: .p :: bitEvents bs

/-- The line events of the samples of a read: an `S` and a `P` for each (R126). -/
def sampleEvents : List Level → List LineEvent
  | [] => []
  | b :: bs => .s b :: .p :: sampleEvents bs

/-- The line events of `writeNoOp()` (R127). -/
def noOpEvents : List LineEvent := .d false :: List.replicate 22 .p

/-- The line events of `writeOp(opc, a, v)` (R124). -/
def writeEvents (opc : Opc) (a v : Byte) : List LineEvent :=
  bitEvents (msbBits opc ++ msbBits a ++ msbBits v) ++ [.d true, .p, .p, .p]

/-- The line events of `readOp(opc, a)` whose samples are `bits` (R126). -/
def readEvents (opc : Opc) (a : Byte) (bits : List Level) : List LineEvent :=
  bitEvents (msbBits opc ++ msbBits a) ++ [.dir false, .p, .p] ++ sampleEvents bits ++ [.p, .dir true]

end Sys2Proof.Machine
end

