-- ==== Sys2Proof/Safety.lean ====
section
/-! DEFINITION. What a good state is: the invariant of the machine, the order in which a command's actions may stand,
and the amount of work a running command has left. -/

namespace Sys2Proof.Machine

/-- The state after `h` in the chain of R190; `Ready` is terminal. -/
def nextHs : HS → Option HS
  | .poweredOff => some .resetting
  | .resetting => some .magicSent
  | .magicSent => some .init1Acked
  | .init1Acked => some .init2Acked
  | .init2Acked => some .ready
  | .ready => none

/-- The fields of the fault register agree (R39): a cause is recorded exactly when it is valid, the phase is 0 unless
the cause is `SyncTimeout`, and `FAULT.PC` is 0 unless the cause is one of the interpreter's. -/
def faultWf (f : FaultReg) : Bool :=
  match f.cause with
  | .none => f == FaultReg.clear
  | .malformedBytecode => f.valid && !f.phase
  | .syncTimeout => f.valid && f.pc == 0
  | .illegalOpcode => f.valid && !f.phase

/-- The pins and registers that the order of a command's actions depends on: the direction, the reset line, the timer,
whether a measurement is open, and the handshake state. -/
structure SeqView where
  oe : Bool
  xres : Bool
  tmr : Timer
  measuring : Bool
  hs : HS
deriving DecidableEq, Repr

/-- At rest between frames: the timer idle, no measurement open. -/
def SeqView.quiet (v : SeqView) : Bool := v.tmr == .idle && !v.measuring

/-- Frames are clocked in output mode, with reset released (R122, R201). -/
def SeqView.frame (v : SeqView) : Bool := v.quiet && v.oe && !v.xres

/-- A poll phase runs in input mode, with reset released (R174). -/
def SeqView.poll (v : SeqView) : Bool := !v.oe && !v.xres

/-- The entry paths of the handshake, before the magic pattern is sent (R193, R195). -/
def SeqView.entry (v : SeqView) : Bool := v.hs == .poweredOff || v.hs == .resetting

/-- The actions `todo` may stand in this order from the view `v` on: frames only in output mode, poll pulses only in
input mode, the reset and power lines written only on the handshake's entry paths, the handshake states in the order of
R190, and at the end `Ready` with the pins at rest (R26, R122, R174, R190, R201). -/
def sequenced : SeqView → List Action → Bool
  | _, [] => false
  | v, .setHs h :: as => v.quiet && nextHs v.hs == some h && sequenced { v with hs := h } as
  | v, .drive _ :: as => v.quiet && sequenced v as
  | v, .dirIn :: as => v.quiet && sequenced { v with oe := false } as
  | v, .dirOut :: as => v.quiet && sequenced { v with oe := true } as
  | v, .pulses _ :: as => v.quiet && sequenced v as
  | v, .xres on :: as => v.quiet && v.entry && sequenced { v with xres := on } as
  | v, .power _ :: as => v.quiet && v.entry && sequenced v as
  | v, .delay _ :: as => v.quiet && sequenced v as
  | v, .magic :: as => v.frame && sequenced v as
  | v, .load _ :: as => v.frame && as.head? == some .run && sequenced v as
  | v, .loadInit3 :: as => v.frame && as.head? == some .run && sequenced v as
  | v, .run :: as => v.frame && as.head? != some .run && sequenced v as
  | v, .startPoll :: as => v.quiet && v.poll && sequenced { v with tmr := .armedHigh } as
  | v, .rise :: as =>
    v.poll && v.tmr == .armedHigh && !v.measuring && sequenced { v with tmr := .idle, measuring := true } as
  | v, .timer :: as =>
    v.poll && v.measuring && v.tmr != .idle &&
      sequenced { v with tmr := if v.tmr == .armedHigh then .armedLow else .idle } as
  | v, .riseEnd _ :: as => v.poll && v.measuring && v.tmr == .idle && sequenced v as
  | v, .fall _ _ :: as => v.poll && v.measuring && v.tmr == .idle && sequenced v as
  | v, .fallEnd _ _ _ :: as => v.poll && v.measuring && v.tmr == .idle && sequenced v as
  | v, .stopPoll :: as => v.poll && v.measuring && v.tmr == .idle && sequenced { v with measuring := false } as
  | v, .detect _ :: as => v.quiet && v.poll && v.hs == .resetting && sequenced v as
  | v, .wrop _ _ _ :: as => v.frame && v.hs == .ready && sequenced v as
  | v, .rdop _ _ :: as => v.frame && v.hs == .ready && sequenced v as
  | v, .finish :: as => v.frame && v.hs == .ready && as == []
  | v, .finishRead :: as => v.frame && v.hs == .ready && as == []

/-- A `run` stands directly after the `load` of its vector; `first` says that the action before was one. -/
def runsLoaded : Bool → List Action → Bool
  | _, [] => true
  | first, .run :: as => first && runsLoaded false as
  | _, .load _ :: as => runsLoaded true as
  | _, .loadInit3 :: as => runsLoaded true as
  | _, _ :: as => runsLoaded false as

/-- The view of a state. -/
def seqView (s : State) : SeqView :=
  { oe := s.sdataOe, xres := s.xres, tmr := s.tmr, measuring := s.mcnt.isSome, hs := s.hs }

/-- The next action is the interpreter's loop. -/
def atRun (s : State) : Bool := s.todo.head? == some .run

/-- The registers of `PCW` bits hold no more (R32, R33, R39). -/
structure PcwOk (b : Board) (s : State) : Prop where
  pc : s.pc < 2 ^ b.pcw
  vlen : s.vlen < 2 ^ b.pcw
  faultPc : s.fault.pc < 2 ^ b.pcw

/-- The interpreter's registers while a vector runs: `PC` never exceeds `VLEN`, and the buffer has no byte at or above
`VLEN` (R32, R60). -/
def vectorOk (s : State) : Prop := s.pc ≤ s.vlen ∧ ∀ c ∈ s.vbuf, c.1 < s.vlen

/-- A command is running: no fault is latched (R40), and its actions stand in order. -/
structure BusyInv (s : State) : Prop where
  noFault : s.fault.valid = false
  order : sequenced (seqView s) s.todo = true
  loaded : runsLoaded (atRun s) s.todo = true
  vector : atRun s = true → vectorOk s

/-- The block is idle: no action is left, the timer is idle, no measurement is open, reset is released; and unless a
fault is latched the line is in output mode and the handshake is at its start or at `Ready` (R122, R201, R204). -/
structure IdleInv (s : State) : Prop where
  todo : s.todo = []
  tmr : s.tmr = .idle
  mcnt : s.mcnt = none
  xres : s.xres = false
  rest : s.fault.valid = false → s.sdataOe = true ∧ (s.hs = .poweredOff ∨ s.hs = .ready)

/-- The invariant of the machine built for `b`: the vector buffer is in canonical form, the registers of `PCW` bits hold
no more (R32, R33), the timeout is not 0 (R43), the fault register's fields agree (R39), `SCLK` is high only between the timer's two expiries (R22, R173), and the block is
running a command in order or idle. -/
structure Inv (b : Board) (s : State) : Prop where
  memory : Memory.wf s.vbuf = true
  width : PcwOk b s
  timeout : timeoutLegal s.cfgTimeout = true
  fault : faultWf s.fault = true
  clock : s.sclk = (s.tmr == .armedLow)
  busy : s.busy = true → BusyInv s
  idle : s.busy = false → IdleInv s

/-- A command is running, no input is taken in this step, and `todo` is what is left to do. -/
structure Running (s : State) (todo : List Action) : Prop where
  busy : s.busy = true
  noInput : noInput s = true
  todo : s.todo = todo

/-- The block is idle and the host's next input is `i`. -/
structure Offered (s : State) (i : HostInput) (rest : List HostInput) : Prop where
  busy : s.busy = false
  inbox : s.inbox = i :: rest

/-- A buffer that ends less than three bytes after a first byte `b0` at `PC` raises `MalformedBytecode` there, and no
line event is made (R155). -/
def TruncatedRaises (b0 : Byte) : Prop :=
  ∀ (b : Board) (s : State) (rest : List Action),
    Running s (.run :: rest) → s.vbuf.read s.pc = b0 → s.pc < s.vlen → s.vlen < s.pc + 3 →
      stepOn b s = .next { s with
        fault := { valid := true, cause := .malformedBytecode, phase := false, pc := s.pc, vec := s.vselId }
        busy := false
        todo := []
        reply := some (.fault { valid := true, cause := .malformedBytecode, phase := false, pc := s.pc, vec := s.vselId }) }

/-- How many steps an action can still take, the actions it puts in front of the rest included. -/
def actionWork (b : Board) : Action → Nat
  | .setHs _ => 1
  | .drive _ => 1
  | .dirIn => 1
  | .dirOut => 1
  | .pulses _ => 1
  | .xres _ => 1
  | .power _ => 1
  | .delay _ => 1
  | .magic => 1
  | .load src => 1 + (srcBytes b src).length
  | .loadInit3 => 1 + (b.vec .init3V5).length + (b.vec .init3V3).length
  | .run => 1
  | .startPoll => 1
  | .rise => 6
  | .timer => 1
  | .riseEnd _ => 3
  | .fall _ _ => 2
  | .fallEnd _ _ _ => 1
  | .stopPoll => 1
  | .detect _ => 1
  | .wrop _ _ _ => 1
  | .rdop _ _ => 1
  | .finish => 1
  | .finishRead => 1

/-- A bound on the steps the running command has left: those of its actions, and a step for each byte of the vector that
is being run (R165, R204). -/
def workLeft (b : Board) (s : State) : Nat :=
  (s.todo.map (actionWork b)).sum + (if atRun s then s.vlen - s.pc else 0)

end Sys2Proof.Machine
end

