-- ==== Sys2Proof/Certificates/Slice0/Obligations.lean ====
section
/-! DEFINITION. The statements for the provers, from the spec's numbered rules. -/

open Sys2Proof Sys2Proof.Machine

/-! ## The serializer -/

/-- R124: `writeOp` leaves the 20 `D` and 22 `P` of its frame, the latch high, the direction as it was, SCLK low, and the
rest of the state as it was; in output mode it clocks the code, the address, the value and `111`. -/
def Obligations.WriteOpResult : Prop :=
  ∀ (opc : Opc) (a v : Byte) (s : State),
    writeOp opc a v s = { s with sclk := false, sdataOut := true, trace := s.trace ++ writeEvents opc a v } ∧
    (writeEvents opc a v).count .p = 22 ∧
    (writeEvents opc a v).count (.d true) + (writeEvents opc a v).count (.d false) = 20 ∧
    (s.sdataOe = true →
      clockedBetween s (writeOp opc a v s) =
        drivenSyms (msbBits opc ++ msbBits a ++ msbBits v) ++ [.one, .one, .one])

/-- R126: `readOp` assembles the target's eight answers, the first as bit 7, whether they are scripted or the oracle's; it
leaves its frame's events, `SDATA_OUT = a[0]`, output mode, `RDATA`, `RDVALID`, and the rest of the state as it was. -/
def Obligations.ReadOpResult : Prop :=
  ∀ (opc : Opc) (a : Byte) (s : State), ∃ b7 b6 b5 b4 b3 b2 b1 b0 : Level,
    s.samples.take 8 <+: [b7, b6, b5, b4, b3, b2, b1, b0] ∧
    (readOp opc a s).1.toNat =
      128 * b7.toNat + 64 * b6.toNat + 32 * b5.toNat + 16 * b4.toNat + 8 * b3.toNat + 4 * b2.toNat + 2 * b1.toNat +
        b0.toNat ∧
    (readOp opc a s).2 =
      { s with
        sclk := false, sdataOe := true, sdataOut := a.getLsbD 0
        rdata := (readOp opc a s).1, rdvalid := true
        samples := s.samples.drop 8
        trace := s.trace ++ readEvents opc a [b7, b6, b5, b4, b3, b2, b1, b0] } ∧
    (s.sdataOe = true →
      clockedBetween s (readOp opc a s).2 = drivenSyms (msbBits opc ++ msbBits a) ++ List.replicate 11 .z)

/-- R127: `writeNoOp` drives data low once and issues 22 pulses; nothing else changes. -/
def Obligations.WriteNoOpResult : Prop :=
  ∀ s : State,
    writeNoOp s = { s with sclk := false, sdataOut := false, trace := s.trace ++ .d false :: List.replicate 22 .p } ∧
    (s.sdataOe = true → clockedBetween s (writeNoOp s) = List.replicate 22 .zero)

/-! ## The five instructions: result, completion and frame -/

/-- R160: a zero byte at a command boundary is `NOP` and plain data inside a triple; `NOP` drives data low, clocks 22
pulses, adds 1 to `PC`, and changes nothing else. -/
def Obligations.NopResult : Prop :=
  (∀ rest, decodeOne (0x00#8 :: rest) = .instr .nop rest) ∧
  (∀ rest, decodeOne (0x04#8 :: 0x00#8 :: 0x00#8 :: rest) = .instr (.wrmem 0x00#8 0x00#8) rest) ∧
  ∀ s : State,
    exec .nop s = .next { s with
      sclk := false, sdataOut := false, pc := s.pc + 1, trace := s.trace ++ .d false :: List.replicate 22 .p } ∧
    (s.sdataOe = true → ∃ t, exec .nop s = .next t ∧ clockedBetween s t = List.replicate 22 .zero)

/-- R161: `04 a v` is `WRMEM a, v`, for all 256 × 256 operands; it writes its frame, adds 3 to `PC`, and changes nothing
else; cut short it raises `MalformedBytecode`. -/
def Obligations.WrmemResult : Prop :=
  (∀ a v rest, decodeOne (0x04#8 :: a :: v :: rest) = .instr (.wrmem a v) rest) ∧
  TruncatedRaises 0x04#8 ∧
  ∀ (a v : Byte) (s : State),
    exec (.wrmem a v) s = .next { s with
      sclk := false, sdataOut := true, pc := s.pc + 3, trace := s.trace ++ writeEvents 0b100#3 a v } ∧
    (s.sdataOe = true → ∃ t, exec (.wrmem a v) s = .next t ∧
      clockedBetween s t = drivenSyms (msbBits 0b100#3 ++ msbBits a ++ msbBits v) ++ [.one, .one, .one])

/-- R163: `06 a v` is `WRREG a, v`; as `WRMEM` with the wire code `110`. -/
def Obligations.WrregResult : Prop :=
  (∀ a v rest, decodeOne (0x06#8 :: a :: v :: rest) = .instr (.wrreg a v) rest) ∧
  TruncatedRaises 0x06#8 ∧
  ∀ (a v : Byte) (s : State),
    exec (.wrreg a v) s = .next { s with
      sclk := false, sdataOut := true, pc := s.pc + 3, trace := s.trace ++ writeEvents 0b110#3 a v } ∧
    (s.sdataOe = true → ∃ t, exec (.wrreg a v) s = .next t ∧
      clockedBetween s t = drivenSyms (msbBits 0b110#3 ++ msbBits a ++ msbBits v) ++ [.one, .one, .one])

/-- R162: `05 a x` is `RDMEM a` for any byte 2; it stores the eight answers as `RDATA`, sets `RDVALID`, appends the record
to `RDLOG`, adds 3 to `PC`, whatever byte 2 is; cut short it raises `MalformedBytecode`. -/
def Obligations.RdmemResult : Prop :=
  (∀ a x rest, decodeOne (0x05#8 :: a :: x :: rest) = .instr (.rdmem a x) rest) ∧
  TruncatedRaises 0x05#8 ∧
  ∀ (a : Byte) (s : State), ∃ bits, bits.length = 8 ∧ s.samples.take 8 <+: bits ∧ ∀ x : Byte,
    exec (.rdmem a x) s = .next { s with
      sclk := false, sdataOe := true, sdataOut := a.getLsbD 0
      rdata := assembleByte bits, rdvalid := true
      rdlog := s.rdlog ++ [{ opc := 0b101#3, addr := a, value := assembleByte bits }]
      samples := s.samples.drop 8
      pc := s.pc + 3
      trace := s.trace ++ readEvents 0b101#3 a bits } ∧
    (s.sdataOe = true → ∃ t, exec (.rdmem a x) s = .next t ∧
      clockedBetween s t = drivenSyms (msbBits 0b101#3 ++ msbBits a) ++ List.replicate 11 .z)

/-- R164: `07 a x` is `RDREG a`; as `RDMEM` with the wire code `111`. -/
def Obligations.RdregResult : Prop :=
  (∀ a x rest, decodeOne (0x07#8 :: a :: x :: rest) = .instr (.rdreg a x) rest) ∧
  TruncatedRaises 0x07#8 ∧
  ∀ (a : Byte) (s : State), ∃ bits, bits.length = 8 ∧ s.samples.take 8 <+: bits ∧ ∀ x : Byte,
    exec (.rdreg a x) s = .next { s with
      sclk := false, sdataOe := true, sdataOut := a.getLsbD 0
      rdata := assembleByte bits, rdvalid := true
      rdlog := s.rdlog ++ [{ opc := 0b111#3, addr := a, value := assembleByte bits }]
      samples := s.samples.drop 8
      pc := s.pc + 3
      trace := s.trace ++ readEvents 0b111#3 a bits } ∧
    (s.sdataOe = true → ∃ t, exec (.rdreg a x) s = .next t ∧
      clockedBetween s t = drivenSyms (msbBits 0b111#3 ++ msbBits a) ++ List.replicate 11 .z)

/-- The frame of the five instructions (R28, R35, R62): whatever operands, `exec` answers a next state in which every
byte of the vector buffer and every register but the pins of the frame, `PC` and the read registers is unchanged; the
read registers change only in the two reads, and there only `RDATA`, `RDVALID` and the end of `RDLOG`. -/
def Obligations.BytecodeFrame : Prop :=
  ∀ (i : Instr) (s : State), ∃ t, exec i s = .next t ∧
    (∀ adr, t.vbuf.read adr = s.vbuf.read adr) ∧
    t.vlen = s.vlen ∧ t.vselId = s.vselId ∧ t.hs = s.hs ∧ t.busy = s.busy ∧ t.fault = s.fault ∧
    t.cfgVsel = s.cfgVsel ∧ t.cfgRstMode = s.cfgRstMode ∧ t.cfgTimeout = s.cfgTimeout ∧
    t.xres = s.xres ∧ t.pwrEn = s.pwrEn ∧ t.tmr = s.tmr ∧ t.mcnt = s.mcnt ∧
    t.todo = s.todo ∧ t.reply = s.reply ∧ t.inbox = s.inbox ∧ t.edges = s.edges ∧ t.polls = s.polls ∧
    t.pc = s.pc + instrLength i ∧ s.trace <+: t.trace ∧
    (readCount [i] = 0 → t.rdata = s.rdata ∧ t.rdvalid = s.rdvalid ∧ t.rdlog = s.rdlog ∧ t.samples = s.samples ∧
      t.sdataOe = s.sdataOe) ∧
    (readCount [i] = 1 → ∃ r, t.rdlog = s.rdlog ++ [r])

/-- R102: from output mode, every instruction's frame has the clocked string of the table, 22 pulses in all. -/
def Obligations.FrameClockedString : Prop :=
  ∀ (i : Instr) (s : State), s.sdataOe = true →
    ∃ t, exec i s = .next t ∧ t.sdataOe = true ∧ clockedBetween s t = frameOf i ∧ (frameOf i).length = 22

/-- R94: the structure of the wire code: bit 2 tells an operation from the no-op, bit 1 the space, bit 0 the direction. -/
def Obligations.WireCodeStructure : Prop :=
  (∀ i : Instr, (wireCode i).getLsbD 2 = false ↔ i = .nop) ∧
  (∀ sp : Space, (writeCode sp).getLsbD 0 = false ∧ (readCode sp).getLsbD 0 = true ∧
    (writeCode sp).getLsbD 2 = true ∧ (readCode sp).getLsbD 2 = true) ∧
  (writeCode .memory).getLsbD 1 = false ∧ (readCode .memory).getLsbD 1 = false ∧
  (writeCode .register).getLsbD 1 = true ∧ (readCode .register).getLsbD 1 = true

/-! ## Decoding and encoding -/

/-- R101: the encodings of the five instructions, a vector's encoding as their concatenation in order, and the round trip:
for every vector of well-formed instructions, decode of encode is the vector. -/
def Obligations.DecodeOfEncodeVector : Prop :=
  encode .nop = [0x00#8] ∧
  (∀ a v : Byte, encode (.wrmem a v) = [0x04#8, a, v] ∧ encode (.rdmem a v) = [0x05#8, a, v] ∧
    encode (.wrreg a v) = [0x06#8, a, v] ∧ encode (.rdreg a v) = [0x07#8, a, v]) ∧
  ∀ is : List Instr, encodeVector is = (is.map encode).flatten ∧
    ((∀ i ∈ is, i.wf = true) → decodeVector (encodeVector is) = .ok is)

/-- The other direction (R100, C12): a buffer that decodes is the encoding of what it decodes to, byte 2 of every read
included. -/
def Obligations.EncodeOfDecodeVector : Prop :=
  ∀ (buf : List Byte) (is : List Instr), decodeVector buf = .ok is → encodeVector is = buf

/-- R99: the length of well-formed bytecode is one byte for each `NOP` and three for each triple; and a buffer whose
length fits can be malformed. -/
def Obligations.VectorLengthInvariant : Prop :=
  (∀ (buf : List Byte) (is : List Instr), decodeVector buf = .ok is →
    buf.length = is.count .nop + 3 * (is.length - is.count .nop)) ∧
  decodeVector [0x04#8, 0x00#8] = .malformed 0

/-- R97: a first byte that is not 0, 4, 5, 6 or 7, its triple being whole, is illegal, and a step at it raises
`IllegalOpcode` with no line event. -/
def Obligations.IllegalFirstByte : Prop :=
  ∀ b0 : Byte, b0 ≠ 0x00#8 → b0 ≠ 0x04#8 → b0 ≠ 0x05#8 → b0 ≠ 0x06#8 → b0 ≠ 0x07#8 →
    (∀ a v rest, decodeOne (b0 :: a :: v :: rest) = .illegal b0) ∧
    ∀ (b : Board) (s : State) (rest : List Action),
      Running s (.run :: rest) → s.vbuf.read s.pc = b0 → s.pc + 3 ≤ s.vlen →
        stepOn b s = .next { s with
          fault := { valid := true, cause := .illegalOpcode, phase := false, pc := s.pc, vec := s.vselId }
          busy := false
          todo := []
          reply := some (.fault { valid := true, cause := .illegalOpcode, phase := false, pc := s.pc, vec := s.vselId }) }

/-- R98: a non-zero first byte, legal or not, with fewer than two bytes after it is a truncated triple. -/
def Obligations.TruncatedTriple : Prop :=
  ∀ (b0 : Byte) (tl : List Byte), b0 ≠ 0x00#8 → tl.length < 2 →
    decodeOne (b0 :: tl) = .malformed ∧ TruncatedRaises b0

/-- Words written out from the encoding tables (R91, R92), read by the decoder as the opcode table numbers their bits. The
clause on the 8-bit word `04` is the model's choice, not the spec's: the bits above `nbits` are zero, so two zero bytes
follow it (DESIGN CHOICE, log entry 27); a vector that ends after a lone `04` is a truncated triple (R98, `TruncatedTriple`). -/
def Obligations.TableWordsDecode : Prop :=
  decodeTableWord 8 0x00 = some .nop ∧
  decodeTableWord 24 0xAB8004 = some (.wrmem 0x80#8 0xAB#8) ∧
  decodeTableWord 24 0x00F805 = some (.rdmem 0xF8#8 0x00#8) ∧
  decodeTableWord 24 0x03FA06 = some (.wrreg 0xFA#8 0x03#8) ∧
  decodeTableWord 24 0xFF1007 = some (.rdreg 0x10#8 0xFF#8) ∧
  decodeTableWord 8 0x04 = some (.wrmem 0x00#8 0x00#8) ∧
  decodeTableWord 24 0xBBAA08 = none

/-! ## The interpreter -/

/-- A step runs the decoded instruction: when the interpreter's loop is next, no input is taken and the bytes at `PC`
decode to an instruction, the step is `exec` of it, with nothing around it (R153, R157); where the outside's next input is a
`wait`, the step only takes it off the inbox besides (the model's input, log entry 30). -/
def Obligations.StepRunsDecodedInstruction : Prop :=
  (∀ (b : Board) (s : State) (rest : List Action) (i : Instr) (tl : List Byte),
    Running s (.run :: rest) → decodeOne (bytesLeft s) = .instr i tl → stepOn b s = exec i s) ∧
  (∀ (s : State) (rest : List Action) (i : Instr) (tl : List Byte),
    Running s (.run :: rest) → decodeOne (bytesLeft s) = .instr i tl → step s = exec i s) ∧
  (∀ (b : Board) (s : State) (rest : List Action) (inb : List HostInput) (i : Instr) (tl : List Byte),
    s.busy = true → s.todo = .run :: rest → s.inbox = .wait :: inb → decodeOne (bytesLeft s) = .instr i tl →
      stepOn b s = exec i { s with inbox := inb })

/-- R159: at `PC = VLEN` the run is complete: no line event, no flag, the caller continues. -/
def Obligations.RunCompletesAtEnd : Prop :=
  ∀ (b : Board) (s : State) (rest : List Action),
    Running s (.run :: rest) → s.pc = s.vlen → stepOn b s = .next { s with todo := rest }

/-- R151: the start of a run sets `VBUF`, `VLEN`, `PC`, `VSEL_ID` and nothing else, for a vector that `PCW` bits can
count, and enters the loop: what is left to run is the whole vector, and under the invariant the loop is the next action.
That the buffer reads `00` beyond the vector and is in canonical form is the model's choice (DESIGN CHOICE, log entry 23). -/
def Obligations.ExecStartLoadsVector : Prop :=
  ∀ (b : Board) (s : State) (rest : List Action) (src : VecSrc),
    Running s (.load src :: rest) → (srcBytes b src).length < 2 ^ b.pcw →
      (∃ t, stepOn b s = .next t ∧ bytesLeft t = srcBytes b src ∧
        (∀ k, t.vbuf.read k = (srcBytes b src).getD k 0x00#8) ∧ Memory.wf t.vbuf = true ∧
        t = { s with
          vbuf := t.vbuf, vlen := (srcBytes b src).length, pc := 0, vselId := srcSel src, todo := rest }) ∧
      (Inv b s → ∃ after, rest = .run :: after)

/-- R169: for every buffer, `Exec` dispatches the commands that `decode` lists, in order, and completes; where `decode`
finds an error at index `n`, `Exec` raises the same error with `FAULT.PC = n` after the commands before. -/
def Obligations.ExecAgreesWithDecode : Prop :=
  ∀ (b : Board) (s : State) (rest : List Action) (buf : List Byte),
    Running s (.run :: rest) → s.vbuf = Memory.ofBytes buf → s.vlen = buf.length → s.pc = 0 →
    (∀ is, decodeVector buf = .ok is →
      ∃ t, execAll is s = .next t ∧ runOn b (is.length + 1) s = .next { t with todo := rest } ∧ t.pc = t.vlen) ∧
    (∀ n, decodeVector buf = .malformed n →
      ∃ is t, encodeVector is = buf.take n ∧ execAll is s = .next t ∧ t.pc = n ∧
        runOn b (is.length + 1) s = .next (raise (malformedFault n s.vselId) t)) ∧
    (∀ n c, decodeVector buf = .illegal n c →
      ∃ is t, encodeVector is = buf.take n ∧ execAll is s = .next t ∧ t.pc = n ∧ buf[n]? = some c ∧
        runOn b (is.length + 1) s = .next (raise (illegalFault n s.vselId) t))

/-- R167: the commands of a vector issue 22 pulses each and 8 samples per read, in order, as the frames of R102. -/
def Obligations.VectorPulseLaw : Prop :=
  ∀ (is : List Instr) (s : State),
    ∃ t, execAll is s = .next t ∧ s.trace <+: t.trace ∧
      pulseCount (newEvents s t) = 22 * is.length ∧
      (samplesIn (newEvents s t)).length = 8 * readCount is ∧
      (s.sdataOe = true → clockedBetween s t = framesOf is)

/-- R62: the vector buffer is read-only: a step changes it only where it starts the execution of a vector. That a block
reset leaves it too is the model's choice, which neither R62 nor R63 says (DESIGN CHOICE, log entry 23). -/
def Obligations.VectorBufferReadOnly : Prop :=
  ∀ (b : Board) (s t : State), stepOn b s = .next t →
    (∀ src, s.todo.head? ≠ some (.load src)) → s.todo.head? ≠ some .loadInit3 →
      t.vbuf = s.vbuf

/-! ## Faults -/

/-- R290: what raising a fault writes, and that everything else keeps its value. -/
def Obligations.RaiseEffect : Prop :=
  ∀ (f : FaultReg) (s : State),
    (raise f s).fault = f ∧ (raise f s).busy = false ∧ (raise f s).todo = [] ∧
    (raise f s).reply = some (.fault f) ∧
    (∀ adr, (raise f s).vbuf.read adr = s.vbuf.read adr) ∧
    { raise f s with fault := s.fault, busy := s.busy, todo := s.todo, reply := s.reply } = s

/-- R40: under the invariant a latched fault is never overwritten: a step leaves it or clears it. The
cleared `FAULT.VEC` is the model's reading (DEDUCED, log entry 7). -/
def Obligations.FaultNeverOverwritten : Prop :=
  ∀ (b : Board) (s t : State), Inv b s → s.fault.valid = true → stepOn b s = .next t →
    t.fault = s.fault ∨ t.fault = FaultReg.clear

/-- R292: while a fault is latched every command but `ACQUIRE` is refused, and `ACQUIRE` clears it and starts over. The
cleared `FAULT.VEC` is the model's reading (DEDUCED, log entry 7). -/
def Obligations.FaultGate : Prop :=
  ∀ (b : Board) (s : State) (c : HostCmd) (rest : List HostInput),
    Offered s (.cmd c) rest → s.fault.valid = true →
    (c ≠ .acquire → stepOn b s = .next { s with inbox := rest, reply := some .refused }) ∧
    (c = .acquire → (s.cfgRstMode = false ∨ b.hasPwr = true) →
      ∃ t, stepOn b s = .next t ∧ t.fault = FaultReg.clear ∧ t.hs = .poweredOff ∧ t.busy = true)

/-! ## Wait-and-poll -/

/-- R177: how a measurement window ends: `Ok` strictly inside the window, `Timeout` when the level never comes or comes
after it, either one exactly at its end; a `Timeout` lasts the whole window. The instance `t = 0` of the first clause, a
level that is there when the window opens, is R175 and rests on the spec's decision D14 (a level, not an edge; vector W4).
That the environment's answer carries the choice at the end of the window is the model's (DESIGN CHOICE, log entry 20). -/
def Obligations.WindowResultRule : Prop :=
  (∀ (T t : Nat) (tie : Bool), t < T → windowResult T { first := some t, tieOk := tie } = .ok t) ∧
  (∀ (T t : Nat) (tie : Bool), T < t → windowResult T { first := some t, tieOk := tie } = .timeout) ∧
  (∀ (T : Nat) (tie : Bool), windowResult T { first := none, tieOk := tie } = .timeout) ∧
  (∀ T : Nat, windowResult T { first := some T, tieOk := true } = .ok T ∧
    windowResult T { first := some T, tieOk := false } = .timeout) ∧
  (∀ (T : Nat) (e : EdgeAnswer), windowResult T e = .timeout → ∀ t, e.first = some t → T ≤ t) ∧
  (∀ (T : Nat) (e : EdgeAnswer), windowResult T e = .timeout → windowTime T (windowResult T e) = T)

/-- The timer (R173, R296): after arming, its first expiry drives SCLK high and re-arms it, its second drives SCLK low,
leaves it idle and completes one `P`. -/
def Obligations.TimerMakesFirstPulse : Prop :=
  ∀ s : State,
    timerExpiry (startPollClock s) = { s with tmr := .armedLow, sclk := true } ∧
    timerExpiry (timerExpiry (startPollClock s)) =
      { s with tmr := .idle, sclk := false, trace := s.trace ++ [.p] }

/-- R173: the timer is armed and the rise window is open (`MCNT` 0), and its measurement stands in the trace, before the first poll
pulse; the first expiry drives SCLK high and re-arms the timer, the second drives SCLK low and leaves it idle. That the `M` event
stands where its window opens, and the value of `MCNT` there, are the model's (DESIGN CHOICE, log entries 9 and 10). -/
def Obligations.RiseWindowOpensFirst : Prop :=
  ∀ (b : Board) (s : State) (rest : List Action),
    Running s (waitAndPoll ++ rest) →
      ∃ t r, runOn b 3 s = .next t ∧ t.mcnt = some 0 ∧ t.tmr = .armedHigh ∧ t.sdataOe = false ∧
        t.trace = s.trace ++ [.dir false, .m true r] ∧
        t.todo = .timer :: .timer :: .riseEnd r :: (.stopPoll :: .drive false :: .dirOut :: .pulses 40 :: rest) ∧
        (∃ v, runOn b 1 t = .next v ∧ v.tmr = .armedLow ∧ v.sclk = true ∧ v.trace = t.trace) ∧
        ∃ u, runOn b 2 t = .next u ∧ u.tmr = .idle ∧ u.sclk = false ∧ u.trace = t.trace ++ [.p]

/-- R178: a wait-and-poll whose two windows end `Ok` ends with data driven low in output mode and 40 flush pulses after
at least one and at most the 20-microsecond periods' number of poll pulses; nothing else changes. R224: `WAITPOLL` while
`READY` starts it, and is answered `Done` after it. The model's own in it: the rounding of the bound on the pulses (R174;
DEDUCED, log entry 8), and that each `M` stands where its window opens, before that window's pulses (DESIGN CHOICE, log
entry 9). The instances `t1 = 0` and `t2 = 0` rest on the spec's decision D14 (a level, not an edge; vector W4). -/
def Obligations.WaitPollSuccess : Prop :=
  (∀ (b : Board) (s : State) (rest : List HostInput),
    Offered s (.cmd .waitpoll) rest → s.hs = .ready → s.fault.valid = false →
      stepOn b s = .next { s with inbox := rest, busy := true, reply := none, todo := waitAndPoll ++ [.finish] }) ∧
  ∀ (b : Board) (s : State) (e1 e2 : EdgeAnswer) (es : List EdgeAnswer) (t1 t2 : Nat),
    s.edges = e1 :: e2 :: es →
    windowResult (timeoutUs s) e1 = .ok t1 → windowResult (timeoutUs s) e2 = .ok t2 →
      (∀ rest : List Action, Running s (waitAndPoll ++ rest) →
        ∃ k1 k2 t, 1 ≤ k1 ∧ k1 + k2 ≤ pollBound (t1 + t2) ∧ runOn b 12 s = .next t ∧
          t = { s with
            sdataOe := true, sdataOut := false, sclk := false, tmr := .idle, mcnt := none
            todo := rest, edges := es, polls := s.polls.drop 2
            trace := s.trace ++ [.dir false, .m true (.ok t1)] ++ List.replicate k1 .p ++ [.m false (.ok t2)] ++
              List.replicate k2 .p ++ [.d false, .dir true] ++ List.replicate 40 .p } ∧
          clockedBetween s t = List.replicate (k1 + k2) .z ++ List.replicate 40 .zero) ∧
      (Offered s (.cmd .waitpoll) [] → s.hs = .ready → s.fault.valid = false →
        ∃ k1 k2, 1 ≤ k1 ∧ k1 + k2 ≤ pollBound (t1 + t2) ∧
          runOn b 14 s = .next { s with
            inbox := [], reply := some .done
            sdataOe := true, sdataOut := false, sclk := false, tmr := .idle, mcnt := none
            todo := [], edges := es, polls := s.polls.drop 2
            trace := s.trace ++ [.dir false, .m true (.ok t1)] ++ List.replicate k1 .p ++ [.m false (.ok t2)] ++
              List.replicate k2 .p ++ [.d false, .dir true] ++ List.replicate 40 .p })

/-- R179, rise: a line that does not rise inside the window ends the call with `SyncTimeout(rise)`: the fall phase is not
started, data is not driven, the line stays an input, no flush pulse is made. The model's own in it: `FAULT.VEC` is INIT1
(DEDUCED from R290, where R39 calls it undefined; log entry 7), the rounding of the bound on the pulses (R174;
DEDUCED, log entry 8), and that the `M` stands where its window opens, before the pulses (DESIGN CHOICE, log entry 9). -/
def Obligations.WaitPollRiseTimeout : Prop :=
  ∀ (b : Board) (s : State) (rest : List Action) (e1 : EdgeAnswer) (es : List EdgeAnswer),
    Running s (waitAndPoll ++ rest) → s.edges = e1 :: es → windowResult (timeoutUs s) e1 = .timeout →
      ∃ k1, 1 ≤ k1 ∧ k1 ≤ pollBound (timeoutUs s) ∧ runOn b 6 s = .next { s with
        sdataOe := false, sclk := false, tmr := .idle, mcnt := none
        fault := { valid := true, cause := .syncTimeout, phase := false, pc := 0, vec := .vec .init1 }
        busy := false, todo := [], edges := es, polls := s.polls.drop 1
        reply := some (.fault { valid := true, cause := .syncTimeout, phase := false, pc := 0, vec := .vec .init1 })
        trace := s.trace ++ [.dir false, .m true .timeout] ++ List.replicate k1 .p }

/-- R179, fall: a line that rises and does not fall inside the second window ends the call with `SyncTimeout(fall)`. The
model's own in it: `FAULT.VEC` is INIT1 (DEDUCED from R290, where R39 calls it undefined; log entry 7), the rounding of the
bound on the pulses (R174; DEDUCED, log entry 8), and that each `M` stands where its window opens (DESIGN CHOICE, log entry
9). The instance `t1 = 0` rests on the spec's decision D14 (a level, not an edge). -/
def Obligations.WaitPollFallTimeout : Prop :=
  ∀ (b : Board) (s : State) (rest : List Action) (e1 e2 : EdgeAnswer) (es : List EdgeAnswer) (t1 : Nat),
    Running s (waitAndPoll ++ rest) → s.edges = e1 :: e2 :: es →
    windowResult (timeoutUs s) e1 = .ok t1 → windowResult (timeoutUs s) e2 = .timeout →
      ∃ k1 k2, 1 ≤ k1 ∧ k1 + k2 ≤ pollBound (t1 + timeoutUs s) ∧ runOn b 8 s = .next { s with
        sdataOe := false, sclk := false, tmr := .idle, mcnt := none
        fault := { valid := true, cause := .syncTimeout, phase := true, pc := 0, vec := .vec .init1 }
        busy := false, todo := [], edges := es, polls := s.polls.drop 2
        reply := some (.fault { valid := true, cause := .syncTimeout, phase := true, pc := 0, vec := .vec .init1 })
        trace := s.trace ++ [.dir false, .m true (.ok t1)] ++ List.replicate k1 .p ++ [.m false .timeout] ++
          List.replicate k2 .p }

/-! ## The handshake -/

/-- R191: `ACQUIRE` is accepted whenever the block is idle, in every handshake state and with or without a latched fault,
on a board that has its path; it clears `FAULT` and `RDLOG` and sets `HS` to `PoweredOff`. That the cleared `FAULT.VEC` is
the identity INIT1 is the model's reading (DEDUCED, where R39 calls it undefined; log entry 7). -/
def Obligations.AcquireAccepted : Prop :=
  ∀ (b : Board) (s : State) (rest : List HostInput),
    Offered s (.cmd .acquire) rest → (s.cfgRstMode = false ∨ b.hasPwr = true) →
      stepOn b s = .next { s with
        inbox := rest, busy := true, reply := none
        fault := { valid := false, cause := .none, phase := false, pc := 0, vec := .vec .init1 }
        rdlog := [], hs := .poweredOff
        todo := (if s.cfgRstMode then powerCycleProgram else hardResetProgram) ++ commonTail }

/-- R192: the power path without a power-enable line is refused with no state change but the answer. -/
def Obligations.PowerPathNeedsLine : Prop :=
  ∀ (b : Board) (s : State) (rest : List HostInput),
    Offered s (.cmd .acquire) rest → s.cfgRstMode = true → b.hasPwr = false →
      stepOn b s = .next { s with inbox := rest, reply := some .refused }

/-- R193 and R199: the hard path makes exactly `X(1) W X(0) W X(1) W X(0) W DIR(out)` and the 22 bits of the magic
pattern, from either direction of the line; `HS` is `Resetting` once reset is first asserted and `MagicSent` at the end,
with reset released; nothing else changes. -/
def Obligations.HardResetPath : Prop :=
  ∀ (b : Board) (s : State) (rest : List Action),
    Running s (hardResetProgram ++ rest) →
      (∃ u, runOn b 2 s = .next u ∧ u.xres = true ∧ u.hs = .resetting ∧ u.trace = s.trace ++ [.x true]) ∧
      ∃ t, runOn b 12 s = .next t ∧
        t = { s with
          xres := false, sdataOe := true, sclk := false, sdataOut := b.magic.toList.getLastD s.sdataOut
          hs := .magicSent, todo := rest
          trace := s.trace ++ [.x true, .w (b.delay .xresHold), .x false, .w (b.delay .xresGap), .x true,
            .w (b.delay .xresBrief), .x false, .w (b.delay .xresToMagic), .dir true] ++ bitEvents b.magic.toList } ∧
        clockedBetween s t = drivenSyms b.magic.toList ∧ b.magic.toList.length = 22

/-- R195 and R199: the power path with a power-up pulse. The instances `t1 = 0` and `t2 = 0` rest on the spec's decision
D14 (a level, not an edge). -/
def Obligations.PowerCyclePath : Prop :=
  ∀ (b : Board) (s : State) (rest : List Action) (e1 e2 : EdgeAnswer) (es : List EdgeAnswer) (t1 t2 : Nat),
    Running s (powerCycleProgram ++ rest) → s.edges = e1 :: e2 :: es →
    windowResult (timeoutUs s) e1 = .ok t1 → windowResult (timeoutUs s) e2 = .ok t2 →
      runOn b 13 s = .next { s with
        pwrEn := true, xres := false, sdataOe := true, sclk := false
        sdataOut := b.magic.toList.getLastD s.sdataOut, hs := .magicSent, todo := rest, edges := es
        trace := s.trace ++ [.pw false, .w (b.delay .pwrOff), .x true, .pw true, .w (b.delay .pwrRst), .x false,
          .dir false, .m true (.ok t1), .m false (.ok t2), .dir true] ++ bitEvents b.magic.toList }

/-- R198: a power-up pulse that does not come raises `SyncTimeout` of its phase, with `HS` at `Resetting`, no clock pulse
made and the line an input. That `FAULT.VEC` is INIT1 in `syncFault` is the model's (DEDUCED from R290, where R39 calls it
undefined; log entry 7). The instance `t1 = 0` rests on the spec's decision D14 (a level, not an edge). -/
def Obligations.PowerUpDetectionTimeout : Prop :=
  ∀ (b : Board) (s : State) (rest : List Action),
    Running s (powerCycleProgram ++ rest) →
    (∀ e1 es, s.edges = e1 :: es → windowResult (timeoutUs s) e1 = .timeout →
      ∃ t, runOn b 9 s = .next t ∧ t.fault = syncFault false ∧ t.hs = .resetting ∧ t.busy = false ∧
        t.sdataOe = false ∧ t.xres = false ∧ t.pwrEn = true ∧ t.sclk = s.sclk ∧ t.tmr = s.tmr ∧
        newEvents s t = [.pw false, .w (b.delay .pwrOff), .x true, .pw true, .w (b.delay .pwrRst), .x false,
          .dir false, .m true .timeout]) ∧
    (∀ e1 e2 es t1, s.edges = e1 :: e2 :: es → windowResult (timeoutUs s) e1 = .ok t1 →
      windowResult (timeoutUs s) e2 = .timeout →
      ∃ t, runOn b 10 s = .next t ∧ t.fault = syncFault true ∧ t.hs = .resetting ∧ t.busy = false ∧
        t.sdataOe = false ∧ t.xres = false ∧ t.pwrEn = true ∧ t.sclk = s.sclk ∧ t.tmr = s.tmr ∧
        newEvents s t = [.pw false, .w (b.delay .pwrOff), .x true, .pw true, .w (b.delay .pwrRst), .x false,
          .dir false, .m true (.ok t1), .m false .timeout])

/-- R200: the Init-Vector-3 that is executed is the one `CFG.VSEL` selects at that step. -/
def Obligations.InitVector3Selection : Prop :=
  ∀ (b : Board) (s : State) (rest : List Action),
    Running s (.loadInit3 :: rest) →
    (b.vec (if s.cfgVsel then .init3V3 else .init3V5)).length < 2 ^ b.pcw →
      ∃ t, stepOn b s = .next t ∧ t.vselId = .vec (if s.cfgVsel then .init3V3 else .init3V5) ∧ t.pc = 0 ∧
        t.vlen = (b.vec (if s.cfgVsel then .init3V3 else .init3V5)).length ∧ t.todo = rest ∧
        bytesLeft t = b.vec (if s.cfgVsel then .init3V3 else .init3V5)

/-- R205 and R201: a hard-path `ACQUIRE` whose init vectors decode and whose four windows end `Ok` ends in `Ready` with
no fault and the pins at rest, and its clocked string is the magic pattern, the frames of Init-Vector-1, a poll phase and
40 zeros, the frames of Init-Vector-2, a poll phase and 40 zeros, and the frames of the selected Init-Vector-3. The
instances in which a window ends `Ok 0` rest on the spec's decision D14 (a level, not an edge), and the cleared `FAULT.VEC`
is the model's reading (DEDUCED, log entry 7). -/
def Obligations.AcquireReachesReady : Prop :=
  ∀ (b : Board) (s : State) (e1 e2 e3 e4 : EdgeAnswer) (es : List EdgeAnswer) (t1 t2 t3 t4 : Nat)
    (c1 c2 c3 : List Instr),
    Offered s (.cmd .acquire) [] → s.cfgRstMode = false →
    (b.vec .init1).length < 2 ^ b.pcw → (b.vec .init2).length < 2 ^ b.pcw →
    (b.vec (if s.cfgVsel then .init3V3 else .init3V5)).length < 2 ^ b.pcw →
    decodeVector (b.vec .init1) = .ok c1 → decodeVector (b.vec .init2) = .ok c2 →
    decodeVector (b.vec (if s.cfgVsel then .init3V3 else .init3V5)) = .ok c3 →
    s.edges = e1 :: e2 :: e3 :: e4 :: es →
    windowResult (timeoutUs s) e1 = .ok t1 → windowResult (timeoutUs s) e2 = .ok t2 →
    windowResult (timeoutUs s) e3 = .ok t3 → windowResult (timeoutUs s) e4 = .ok t4 →
      ∃ n t k1 k2, runOn b n s = .next t ∧
        t.busy = false ∧ t.reply = some .done ∧ t.hs = .ready ∧ t.fault = FaultReg.clear ∧ t.xres = false ∧
        t.pwrEn = s.pwrEn ∧ t.sdataOe = true ∧ t.sclk = false ∧ t.tmr = .idle ∧
        1 ≤ k1 ∧ 1 ≤ k2 ∧
        [.x true, .w (b.delay .xresHold), .x false, .w (b.delay .xresGap), .x true, .w (b.delay .xresBrief),
          .x false, .w (b.delay .xresToMagic)] <+: newEvents s t ∧
        clockedBetween s t =
          drivenSyms b.magic.toList ++ framesOf c1 ++ List.replicate k1 .z ++ List.replicate 40 .zero ++
          framesOf c2 ++ List.replicate k2 .z ++ List.replicate 40 .zero ++ framesOf c3

/-- R203: under the invariant every step leaves `HS`, moves it one state on along the chain, or sets it to `PoweredOff`;
and it is set to `PoweredOff` only by the acceptance of `ACQUIRE` and by block reset. -/
def Obligations.HandshakeTransitions : Prop :=
  ∀ (b : Board) (s t : State), Inv b s → stepOn b s = .next t →
    (t.hs = s.hs ∨ nextHs s.hs = some t.hs ∨ t.hs = .poweredOff) ∧
    (t.hs ≠ s.hs → t.hs = .poweredOff →
      s.inbox.head? = some (.cmd .acquire) ∨ ∃ cut, s.inbox.head? = some (.reset cut)) ∧
    (nextHs s.hs = some t.hs → t.hs ≠ s.hs → ∃ rest, s.todo = .setHs t.hs :: rest)

/-- R26: only the handshake writes `XRES` and `PWR_EN`: under the invariant a step other than block reset changes one only
as that action of a running command, with `HS` at `PoweredOff` or `Resetting`, where the running command can be only
`ACQUIRE` on one of its two entry paths (R190, R227). -/
def Obligations.ResetAndPowerLinesOwned : Prop :=
  ∀ (b : Board) (s t : State), Inv b s → stepOn b s = .next t → (∀ cut, s.inbox.head? ≠ some (.reset cut)) →
    (t.xres ≠ s.xres → s.busy = true ∧ (s.hs = .poweredOff ∨ s.hs = .resetting) ∧ ∃ rest, s.todo = .xres t.xres :: rest) ∧
    (t.pwrEn ≠ s.pwrEn → s.busy = true ∧ (s.hs = .poweredOff ∨ s.hs = .resetting) ∧ ∃ rest, s.todo = .power t.pwrEn :: rest)

/-! ## The command port -/

/-- R227 and R288: a command other than `ACQUIRE` given while not `READY` is refused: no line event and no register
changes. -/
def Obligations.ReadyGate : Prop :=
  ∀ (b : Board) (s : State) (c : HostCmd) (rest : List HostInput),
    Offered s (.cmd c) rest → c ≠ .acquire → ¬ (s.hs = .ready ∧ s.fault.valid = false) →
      stepOn b s = .next { s with inbox := rest, reply := some .refused }

/-- R221: a busy block takes no command: the step is the running command's. That the command then waits, and is not lost,
is the model's command port (DESIGN CHOICE, log entry 3): R221 and D32 say that it is not accepted and that there is no
queue. -/
def Obligations.BusyTakesNoCommand : Prop :=
  ∀ (b : Board) (s : State) (c : HostCmd) (rest : List HostInput),
    s.busy = true → s.inbox = .cmd c :: rest →
      stepOn b s = runAction b s ∧ ∀ t, stepOn b s = .next t → t.inbox = .cmd c :: rest

/-- R225: `WROP` while `READY` clocks the write frame of its kind and ends `Done`; nothing else changes. -/
def Obligations.WropResult : Prop :=
  ∀ (b : Board) (s : State) (sp : Space) (a v : Byte),
    Offered s (.cmd (.wrop sp a v)) [] → s.hs = .ready → s.fault.valid = false →
      runOn b 3 s = .next { s with
        inbox := [], todo := [], reply := some .done, sclk := false, sdataOut := true
        trace := s.trace ++ writeEvents (match sp with | .memory => 0b100#3 | .register => 0b110#3) a v }

/-- R226: `RDOP` while `READY` empties `RDLOG`, clocks the read frame of its kind and ends `Done(r)`, `r` being the byte
the eight answers assemble, in `RDATA`. That `RDLOG` then holds the one record of the read is the model's reading, which R226
does not say (DEDUCED from R158 and vector G7, log entry 6). -/
def Obligations.RdopResult : Prop :=
  ∀ (b : Board) (s : State) (sp : Space) (a : Byte),
    Offered s (.cmd (.rdop sp a)) [] → s.hs = .ready → s.fault.valid = false →
      ∃ bits, bits.length = 8 ∧ s.samples.take 8 <+: bits ∧
        runOn b 3 s = .next { s with
          inbox := [], todo := [], reply := some (.doneByte (assembleByte bits))
          sclk := false, sdataOe := true, sdataOut := a.getLsbD 0
          rdata := assembleByte bits, rdvalid := true
          rdlog := [{ opc := (match sp with | .memory => 0b101#3 | .register => 0b111#3), addr := a,
                      value := assembleByte bits }]
          samples := s.samples.drop 8
          trace := s.trace ++ readEvents (match sp with | .memory => 0b101#3 | .register => 0b111#3) a bits }

/-- R223: `EXEC` of a vector that decodes, while `READY`, empties `RDLOG`, runs its commands in order and ends `Done`. -/
def Obligations.ExecResult : Prop :=
  ∀ (b : Board) (s : State) (src : VecSrc) (is : List Instr),
    Offered s (.cmd (.exec src)) [] → s.hs = .ready → s.fault.valid = false →
    (srcBytes b src).length < 2 ^ b.pcw → decodeVector (srcBytes b src) = .ok is →
      ∃ t, execAll is { s with
          inbox := [], busy := true, reply := none, rdlog := [], todo := [.run, .finish]
          vbuf := Memory.ofBytes (srcBytes b src), vlen := (srcBytes b src).length, pc := 0, vselId := srcSel src } = .next t ∧
        runOn b (is.length + 4) s = .next { t with busy := false, todo := [], reply := some .done }

/-- R30: a host read of `RDATA` faults while `RDVALID = 0`, and answers the register once it is 1, changing nothing. -/
def Obligations.ReadDataRegister : Prop :=
  ∀ (b : Board) (s : State) (rest : List HostInput), s.inbox = .read .rdata :: rest →
    (s.rdvalid = false → stepOn b s = .fault .rdataUndefined) ∧
    (s.rdvalid = true → stepOn b s = .next { s with inbox := rest, reply := some (.value (.rdata s.rdata)) })

/-- R45: a configuration register may be written while the block is idle, and holds the value then: `CFG.VSEL` (R41),
`CFG.RSTMODE` (R42) and the timeout (R43), whose value 0 is refused with nothing changed. The model's own in it: the
answers, and that `CFG.RSTMODE` 1 is stored on a board without the power line too (DESIGN CHOICE, log entry 21). -/
def Obligations.ConfigWrite : Prop :=
  ∀ (b : Board) (s : State) (rest : List HostInput),
    (∀ v, Offered s (.setVsel v) rest → stepOn b s = .next { s with inbox := rest, cfgVsel := v, reply := some .done }) ∧
    (∀ v, Offered s (.setRstMode v) rest →
      stepOn b s = .next { s with inbox := rest, cfgRstMode := v, reply := some .done }) ∧
    (∀ w, Offered s (.setTimeout w) rest → w ≠ 0#32 →
      stepOn b s = .next { s with inbox := rest, cfgTimeout := w, reply := some .done }) ∧
    (Offered s (.setTimeout 0#32) rest → stepOn b s = .next { s with inbox := rest, reply := some .cfgRefused })

/-- R45: a configuration register is written only by its own input while the block is idle, or by block reset. -/
def Obligations.ConfigOnlyByHost : Prop :=
  ∀ (b : Board) (s t : State), stepOn b s = .next t → (∀ cut, s.inbox.head? ≠ some (.reset cut)) →
    (t.cfgVsel ≠ s.cfgVsel → s.busy = false ∧ ∃ v, s.inbox.head? = some (.setVsel v)) ∧
    (t.cfgRstMode ≠ s.cfgRstMode → s.busy = false ∧ ∃ v, s.inbox.head? = some (.setRstMode v)) ∧
    (t.cfgTimeout ≠ s.cfgTimeout → s.busy = false ∧ ∃ w, s.inbox.head? = some (.setTimeout w))

/-- R321: after reset the block is idle and waits; a command other than `ACQUIRE` is refused, and `ACQUIRE` runs. That `ACQUIRE`
starts from `State.reset` on every board rests on the model's reset value of `CFG.RSTMODE`, the hard path, which R52 leaves
unspecified (DESIGN CHOICE, log entry 5). -/
def Obligations.AfterResetOnlyAcquire : Prop :=
  step State.reset = .next State.reset ∧
  (∀ s : State, s.busy = false → s.inbox = [] → step s = .next s) ∧
  (∀ (c : HostCmd) (rest : List HostInput), c ≠ .acquire →
    step { State.reset with inbox := .cmd c :: rest } =
      .next { State.reset with inbox := rest, reply := some .refused }) ∧
  (∀ rest : List HostInput, ∃ t, step { State.reset with inbox := .cmd .acquire :: rest } = .next t ∧ t.busy = true)

/-! ## Reset -/

/-- What R52 states of the reset state; the registers it leaves unspecified are not named. But for `HS` the values are the
spec's own decision (D20), and that the field `FAULT.VEC`, which is 0, is the identity INIT1 is the model's reading
(DEDUCED, log entry 7). -/
def Obligations.ResetValues : Prop :=
  State.reset.hs = .poweredOff ∧ State.reset.sclk = false ∧ State.reset.sdataOut = false ∧
  State.reset.sdataOe = true ∧ State.reset.xres = false ∧ State.reset.busy = false ∧
  State.reset.fault = { valid := false, cause := .none, phase := false, pc := 0, vec := .vec .init1 } ∧
  State.reset.rdvalid = false ∧ State.reset.tmr = .idle ∧ State.reset.cfgTimeout.toNat = 100000 ∧
  hsCode State.reset.hs = 0#3 ∧ causeCode State.reset.fault.cause = 0#2

/-- R320 and R322: the reset input is taken at any time, in the middle of a command too: every register the spec gives a
reset value has it, `PC` and `VLEN` hold a value of `PCW` bits (R32, R33), and the trace is what it was, then of an idle
block nothing and of a busy one the first `cut` events of the action in progress, and then the mark. The cut, the mark and
the `M` event that a cut window leaves are the model's (DESIGN CHOICE, log entries 12 and 26), the cleared `FAULT.VEC` its
reading (DEDUCED, log entry 7). -/
def Obligations.BlockResetInput : Prop :=
  ∀ (b : Board) (s : State) (cut : Nat) (rest : List HostInput), s.inbox = .reset cut :: rest →
    ∃ t es, stepOn b s = .next t ∧
      t.hs = .poweredOff ∧ t.sclk = false ∧ t.sdataOut = false ∧ t.sdataOe = true ∧ t.xres = false ∧
      t.busy = false ∧ t.fault = FaultReg.clear ∧ t.rdvalid = false ∧ t.tmr = .idle ∧
      t.cfgTimeout.toNat = 100000 ∧ t.todo = [] ∧ t.inbox = rest ∧
      t.pc < 2 ^ b.pcw ∧ t.vlen < 2 ^ b.pcw ∧
      t.trace = s.trace ++ es ++ [.rst] ∧ es.length ≤ cut ∧ (s.busy = false → es = []) ∧
      (s.busy = true → ∀ u, runAction b { s with inbox := rest } = .next u → es = (newEvents s u).take cut) ∧
      ((∀ u, runAction b { s with inbox := rest } ≠ .next u) → es = [])

/-! ## Invariants and termination -/

/-- The invariant holds at reset, on every board (R122, R52). The model's own in it: the values of `PC` and `VLEN`, which R52
leaves unspecified (DESIGN CHOICE, log entry 5), the cleared `FAULT.VEC` (DEDUCED, log entry 7), the width of `PC`, `VLEN`
and `FAULT.PC` (log entry 15) and the canonical form of the empty buffer (DESIGN CHOICE, log entry 23). -/
def Obligations.ResetMeetsInv : Prop := ∀ b : Board, Inv b State.reset

/-- Every step keeps the invariant (R22, R32, R33, R39, R40, R43, R122, R174, R190, R201). The model's own in it: the
canonical form of the vector buffer (DESIGN CHOICE, log entry 23), the cleared `FAULT.VEC` (DEDUCED, log entry 7), and that
`PC`, `VLEN` and `FAULT.PC` are numbers below `2 ^ PCW` (DESIGN CHOICE, log entry 15). -/
def Obligations.StepKeepsInv : Prop :=
  (∀ (b : Board) (s t : State), Inv b s → stepOn b s = .next t → Inv b t) ∧
  (∀ s t : State, Inv Config.board s → step s = .next t → Inv Config.board t)

/-- The entry condition of the serializer (R122): whenever the invariant holds, an idle block with no latched fault, and a
block about to clock a frame, has SDATA in output mode and SCLK low. -/
def Obligations.SerializerEntryCondition : Prop :=
  ∀ (b : Board) (s : State), Inv b s →
    (s.busy = false → s.fault.valid = false → s.sdataOe = true ∧ s.sclk = false) ∧
    (∀ rest, s.busy = true → s.todo = .run :: rest → s.sdataOe = true ∧ s.sclk = false) ∧
    (∀ sp a v rest, s.busy = true → s.todo = .wrop sp a v :: rest → s.sdataOe = true ∧ s.sclk = false) ∧
    (∀ sp a rest, s.busy = true → s.todo = .rdop sp a :: rest → s.sdataOe = true ∧ s.sclk = false)

/-- R204 and R165: a running command always ends: under the invariant each of its steps leaves less work. -/
def Obligations.CommandTerminates : Prop :=
  ∀ (b : Board) (s t : State), Inv b s → s.busy = true → noInput s = true → stepOn b s = .next t →
    workLeft b t < workLeft b s

/-! ## The host's contract and the offline compiler -/

/-- R255: an image whose length is not a multiple of 8192 fails before any command. -/
def Obligations.ImageSizeCheckedFirst : Prop :=
  ∀ (σ : Type) (dev : σ → HostCmd → Reply × σ) (h : HostVars) (d : σ) (b : Board) (image : List Byte),
    image.length % 8192 ≠ 0 →
      runHost dev (programImage b image) h d = { cmds := [], result := .invalidImageSize, vars := h, dev := d } ∧
      runHost dev (verifyImage b image) h d = { cmds := [], result := .invalidImageSize, vars := h, dev := d } ∧
      runHost dev (patchImage b image) h d = { cmds := [], result := .invalidImageSize, vars := h, dev := d }

/-- R259: a fault-free `program` of an image of `n` banks gives `2 + n * (s + 8576)` commands, `s` being the length of the
bank-select sequence. After it `cur_bank` is the last bank (R243,
R246, R250), a natural number of no width (DESIGN CHOICE, log entry 25). -/
def Obligations.ProgramCommandCount : Prop :=
  ∀ (σ : Type) (dev : σ → HostCmd → Reply × σ) (h : HostVars) (d : σ) (b : Board) (image : List Byte) (n sl : Nat),
    (∀ e src, (dev e (.exec src)).1 = .done) → (∀ e, (dev e .waitpoll).1 = .done) →
    (∀ e sp a v, (dev e (.wrop sp a v)).1 = .done) → image.length = n * 8192 → (∀ bank, (b.setBankSeq bank).length = sl) →
      (runHost dev (programImage b image) h d).cmds.length = 2 + n * (sl + 8576) ∧
      (runHost dev (programImage b image) h d).result = .ok ∧
      (runHost dev (programImage b image) h d).vars.curBank = if n = 0 then h.curBank else some (n - 1)

/-- R252 and R258: where the block already holds what it should and the status is zero, `patch` gives 68 commands for it,
none of them an erase, a program or a write to the staging window, and goes on. For a block index above 127, which R244 rules
out, the byte that selects it is the model's choice (DESIGN CHOICE, log entry 31). -/
def Obligations.PatchSkipsUnchangedBlock : Prop :=
  ∀ (σ : Type) (dev : σ → HostCmd → Reply × σ) (h : HostVars) (d : σ) (b : Board) (want : List Byte) (blk : Nat)
    (r : HostResult),
    want.length = 64 →
    (∀ e src, (dev e (.exec src)).1 = .done) → (∀ e, (dev e .waitpoll).1 = .done) →
    (∀ e sp a v, (dev e (.wrop sp a v)).1 = .done) →
    (∀ e i, i < 64 → (dev e (.rdop .memory (bufAddr i))).1 = .doneByte (want.getD i 0x00#8)) →
    (∀ e, (dev e (.rdop .memory 0xF8#8)).1 = .doneByte 0x00#8) →
      (runHost dev (patchBlock b want blk (.ret r)) h d).cmds =
        [.wrop .memory b.blockSelAddr (BitVec.ofNat 8 blk), .exec (.id .verifySetup), .waitpoll] ++
        (List.range 64).map (fun i => .rdop .memory (bufAddr i)) ++ [.rdop .memory 0xF8#8] ∧
      (runHost dev (patchBlock b want blk (.ret r)) h d).result = r ∧
      (runHost dev (patchBlock b want blk (.ret r)) h d).vars = h

/-- R272 to R275: what a 22-character group compiles to, the unread positions holding any character. That a `000` group
compiles to `NOP` whatever its other 19 characters are is the model's choice, since R275 leaves open whether they are
checked (DESIGN CHOICE, log entry 16). -/
def Obligations.CompilerGroups : Prop :=
  (∀ (a v : Byte) (tl : List Char), tl.length = 3 →
    compileGroup (['1', '0', '0'] ++ bitChars (msbBits a ++ msbBits v) ++ tl) = .ok [.wrmem a v] ∧
    compileGroup (['1', '1', '0'] ++ bitChars (msbBits a ++ msbBits v) ++ tl) = .ok [.wrreg a v]) ∧
  (∀ (a : Byte) (tl : List Char), tl.length = 11 →
    compileGroup (['1', '0', '1'] ++ bitChars (msbBits a) ++ tl) = .ok [.rdmem a 0x00#8] ∧
    compileGroup (['1', '1', '1'] ++ bitChars (msbBits a) ++ tl) = .ok [.rdreg a 0x00#8]) ∧
  (∀ tl : List Char, tl.length = 19 →
    compileGroup (['0', '0', '0'] ++ tl) = .ok [.nop] ∧
    compileGroup (['0', '0', '1'] ++ tl) = .unrecognizedOpcode ∧
    compileGroup (['0', '1', '0'] ++ tl) = .unrecognizedOpcode ∧
    compileGroup (['0', '1', '1'] ++ tl) = .unrecognizedOpcode)
end

