-- ==== Sys2Proof/Laws/State.lean ====
section
/-! SUPPORT. One lemma per field per update of the state, so that no proof unfolds a record update. -/

namespace Sys2Proof.Machine

variable (s : State)


@[simp] theorem emit_sclk (e : LineEvent) : (emit e s).sclk = s.sclk := rfl
@[simp] theorem emit_sdataOut (e : LineEvent) : (emit e s).sdataOut = s.sdataOut := rfl
@[simp] theorem emit_sdataOe (e : LineEvent) : (emit e s).sdataOe = s.sdataOe := rfl
@[simp] theorem emit_xres (e : LineEvent) : (emit e s).xres = s.xres := rfl
@[simp] theorem emit_pwrEn (e : LineEvent) : (emit e s).pwrEn = s.pwrEn := rfl
@[simp] theorem emit_rdata (e : LineEvent) : (emit e s).rdata = s.rdata := rfl
@[simp] theorem emit_rdvalid (e : LineEvent) : (emit e s).rdvalid = s.rdvalid := rfl
@[simp] theorem emit_rdlog (e : LineEvent) : (emit e s).rdlog = s.rdlog := rfl
@[simp] theorem emit_pc (e : LineEvent) : (emit e s).pc = s.pc := rfl
@[simp] theorem emit_vlen (e : LineEvent) : (emit e s).vlen = s.vlen := rfl
@[simp] theorem emit_vselId (e : LineEvent) : (emit e s).vselId = s.vselId := rfl
@[simp] theorem emit_vbuf (e : LineEvent) : (emit e s).vbuf = s.vbuf := rfl
@[simp] theorem emit_hs (e : LineEvent) : (emit e s).hs = s.hs := rfl
@[simp] theorem emit_busy (e : LineEvent) : (emit e s).busy = s.busy := rfl
@[simp] theorem emit_fault (e : LineEvent) : (emit e s).fault = s.fault := rfl
@[simp] theorem emit_cfgVsel (e : LineEvent) : (emit e s).cfgVsel = s.cfgVsel := rfl
@[simp] theorem emit_cfgRstMode (e : LineEvent) : (emit e s).cfgRstMode = s.cfgRstMode := rfl
@[simp] theorem emit_cfgTimeout (e : LineEvent) : (emit e s).cfgTimeout = s.cfgTimeout := rfl
@[simp] theorem emit_tmr (e : LineEvent) : (emit e s).tmr = s.tmr := rfl
@[simp] theorem emit_mcnt (e : LineEvent) : (emit e s).mcnt = s.mcnt := rfl
@[simp] theorem emit_todo (e : LineEvent) : (emit e s).todo = s.todo := rfl
@[simp] theorem emit_reply (e : LineEvent) : (emit e s).reply = s.reply := rfl
@[simp] theorem emit_trace (e : LineEvent) : (emit e s).trace = s.trace ++ [e] := rfl
@[simp] theorem emit_inbox (e : LineEvent) : (emit e s).inbox = s.inbox := rfl
@[simp] theorem emit_samples (e : LineEvent) : (emit e s).samples = s.samples := rfl
@[simp] theorem emit_edges (e : LineEvent) : (emit e s).edges = s.edges := rfl
@[simp] theorem emit_polls (e : LineEvent) : (emit e s).polls = s.polls := rfl

@[simp] theorem setSclk_sclk (b : Level) : (setSclk b s).sclk = b := rfl
@[simp] theorem setSclk_sdataOut (b : Level) : (setSclk b s).sdataOut = s.sdataOut := rfl
@[simp] theorem setSclk_sdataOe (b : Level) : (setSclk b s).sdataOe = s.sdataOe := rfl
@[simp] theorem setSclk_xres (b : Level) : (setSclk b s).xres = s.xres := rfl
@[simp] theorem setSclk_pwrEn (b : Level) : (setSclk b s).pwrEn = s.pwrEn := rfl
@[simp] theorem setSclk_rdata (b : Level) : (setSclk b s).rdata = s.rdata := rfl
@[simp] theorem setSclk_rdvalid (b : Level) : (setSclk b s).rdvalid = s.rdvalid := rfl
@[simp] theorem setSclk_rdlog (b : Level) : (setSclk b s).rdlog = s.rdlog := rfl
@[simp] theorem setSclk_pc (b : Level) : (setSclk b s).pc = s.pc := rfl
@[simp] theorem setSclk_vlen (b : Level) : (setSclk b s).vlen = s.vlen := rfl
@[simp] theorem setSclk_vselId (b : Level) : (setSclk b s).vselId = s.vselId := rfl
@[simp] theorem setSclk_vbuf (b : Level) : (setSclk b s).vbuf = s.vbuf := rfl
@[simp] theorem setSclk_hs (b : Level) : (setSclk b s).hs = s.hs := rfl
@[simp] theorem setSclk_busy (b : Level) : (setSclk b s).busy = s.busy := rfl
@[simp] theorem setSclk_fault (b : Level) : (setSclk b s).fault = s.fault := rfl
@[simp] theorem setSclk_cfgVsel (b : Level) : (setSclk b s).cfgVsel = s.cfgVsel := rfl
@[simp] theorem setSclk_cfgRstMode (b : Level) : (setSclk b s).cfgRstMode = s.cfgRstMode := rfl
@[simp] theorem setSclk_cfgTimeout (b : Level) : (setSclk b s).cfgTimeout = s.cfgTimeout := rfl
@[simp] theorem setSclk_tmr (b : Level) : (setSclk b s).tmr = s.tmr := rfl
@[simp] theorem setSclk_mcnt (b : Level) : (setSclk b s).mcnt = s.mcnt := rfl
@[simp] theorem setSclk_todo (b : Level) : (setSclk b s).todo = s.todo := rfl
@[simp] theorem setSclk_reply (b : Level) : (setSclk b s).reply = s.reply := rfl
@[simp] theorem setSclk_trace (b : Level) : (setSclk b s).trace = s.trace := rfl
@[simp] theorem setSclk_inbox (b : Level) : (setSclk b s).inbox = s.inbox := rfl
@[simp] theorem setSclk_samples (b : Level) : (setSclk b s).samples = s.samples := rfl
@[simp] theorem setSclk_edges (b : Level) : (setSclk b s).edges = s.edges := rfl
@[simp] theorem setSclk_polls (b : Level) : (setSclk b s).polls = s.polls := rfl

@[simp] theorem drive_sclk (b : Level) : (drive b s).sclk = s.sclk := rfl
@[simp] theorem drive_sdataOut (b : Level) : (drive b s).sdataOut = b := rfl
@[simp] theorem drive_sdataOe (b : Level) : (drive b s).sdataOe = s.sdataOe := rfl
@[simp] theorem drive_xres (b : Level) : (drive b s).xres = s.xres := rfl
@[simp] theorem drive_pwrEn (b : Level) : (drive b s).pwrEn = s.pwrEn := rfl
@[simp] theorem drive_rdata (b : Level) : (drive b s).rdata = s.rdata := rfl
@[simp] theorem drive_rdvalid (b : Level) : (drive b s).rdvalid = s.rdvalid := rfl
@[simp] theorem drive_rdlog (b : Level) : (drive b s).rdlog = s.rdlog := rfl
@[simp] theorem drive_pc (b : Level) : (drive b s).pc = s.pc := rfl
@[simp] theorem drive_vlen (b : Level) : (drive b s).vlen = s.vlen := rfl
@[simp] theorem drive_vselId (b : Level) : (drive b s).vselId = s.vselId := rfl
@[simp] theorem drive_vbuf (b : Level) : (drive b s).vbuf = s.vbuf := rfl
@[simp] theorem drive_hs (b : Level) : (drive b s).hs = s.hs := rfl
@[simp] theorem drive_busy (b : Level) : (drive b s).busy = s.busy := rfl
@[simp] theorem drive_fault (b : Level) : (drive b s).fault = s.fault := rfl
@[simp] theorem drive_cfgVsel (b : Level) : (drive b s).cfgVsel = s.cfgVsel := rfl
@[simp] theorem drive_cfgRstMode (b : Level) : (drive b s).cfgRstMode = s.cfgRstMode := rfl
@[simp] theorem drive_cfgTimeout (b : Level) : (drive b s).cfgTimeout = s.cfgTimeout := rfl
@[simp] theorem drive_tmr (b : Level) : (drive b s).tmr = s.tmr := rfl
@[simp] theorem drive_mcnt (b : Level) : (drive b s).mcnt = s.mcnt := rfl
@[simp] theorem drive_todo (b : Level) : (drive b s).todo = s.todo := rfl
@[simp] theorem drive_reply (b : Level) : (drive b s).reply = s.reply := rfl
@[simp] theorem drive_trace (b : Level) : (drive b s).trace = s.trace ++ [.d b] := rfl
@[simp] theorem drive_inbox (b : Level) : (drive b s).inbox = s.inbox := rfl
@[simp] theorem drive_samples (b : Level) : (drive b s).samples = s.samples := rfl
@[simp] theorem drive_edges (b : Level) : (drive b s).edges = s.edges := rfl
@[simp] theorem drive_polls (b : Level) : (drive b s).polls = s.polls := rfl

@[simp] theorem dirIn_sclk : (dirIn s).sclk = s.sclk := rfl
@[simp] theorem dirIn_sdataOut : (dirIn s).sdataOut = s.sdataOut := rfl
@[simp] theorem dirIn_sdataOe : (dirIn s).sdataOe = false := rfl
@[simp] theorem dirIn_xres : (dirIn s).xres = s.xres := rfl
@[simp] theorem dirIn_pwrEn : (dirIn s).pwrEn = s.pwrEn := rfl
@[simp] theorem dirIn_rdata : (dirIn s).rdata = s.rdata := rfl
@[simp] theorem dirIn_rdvalid : (dirIn s).rdvalid = s.rdvalid := rfl
@[simp] theorem dirIn_rdlog : (dirIn s).rdlog = s.rdlog := rfl
@[simp] theorem dirIn_pc : (dirIn s).pc = s.pc := rfl
@[simp] theorem dirIn_vlen : (dirIn s).vlen = s.vlen := rfl
@[simp] theorem dirIn_vselId : (dirIn s).vselId = s.vselId := rfl
@[simp] theorem dirIn_vbuf : (dirIn s).vbuf = s.vbuf := rfl
@[simp] theorem dirIn_hs : (dirIn s).hs = s.hs := rfl
@[simp] theorem dirIn_busy : (dirIn s).busy = s.busy := rfl
@[simp] theorem dirIn_fault : (dirIn s).fault = s.fault := rfl
@[simp] theorem dirIn_cfgVsel : (dirIn s).cfgVsel = s.cfgVsel := rfl
@[simp] theorem dirIn_cfgRstMode : (dirIn s).cfgRstMode = s.cfgRstMode := rfl
@[simp] theorem dirIn_cfgTimeout : (dirIn s).cfgTimeout = s.cfgTimeout := rfl
@[simp] theorem dirIn_tmr : (dirIn s).tmr = s.tmr := rfl
@[simp] theorem dirIn_mcnt : (dirIn s).mcnt = s.mcnt := rfl
@[simp] theorem dirIn_todo : (dirIn s).todo = s.todo := rfl
@[simp] theorem dirIn_reply : (dirIn s).reply = s.reply := rfl
@[simp] theorem dirIn_trace : (dirIn s).trace = s.trace ++ [.dir false] := rfl
@[simp] theorem dirIn_inbox : (dirIn s).inbox = s.inbox := rfl
@[simp] theorem dirIn_samples : (dirIn s).samples = s.samples := rfl
@[simp] theorem dirIn_edges : (dirIn s).edges = s.edges := rfl
@[simp] theorem dirIn_polls : (dirIn s).polls = s.polls := rfl

@[simp] theorem dirOut_sclk : (dirOut s).sclk = s.sclk := rfl
@[simp] theorem dirOut_sdataOut : (dirOut s).sdataOut = s.sdataOut := rfl
@[simp] theorem dirOut_sdataOe : (dirOut s).sdataOe = true := rfl
@[simp] theorem dirOut_xres : (dirOut s).xres = s.xres := rfl
@[simp] theorem dirOut_pwrEn : (dirOut s).pwrEn = s.pwrEn := rfl
@[simp] theorem dirOut_rdata : (dirOut s).rdata = s.rdata := rfl
@[simp] theorem dirOut_rdvalid : (dirOut s).rdvalid = s.rdvalid := rfl
@[simp] theorem dirOut_rdlog : (dirOut s).rdlog = s.rdlog := rfl
@[simp] theorem dirOut_pc : (dirOut s).pc = s.pc := rfl
@[simp] theorem dirOut_vlen : (dirOut s).vlen = s.vlen := rfl
@[simp] theorem dirOut_vselId : (dirOut s).vselId = s.vselId := rfl
@[simp] theorem dirOut_vbuf : (dirOut s).vbuf = s.vbuf := rfl
@[simp] theorem dirOut_hs : (dirOut s).hs = s.hs := rfl
@[simp] theorem dirOut_busy : (dirOut s).busy = s.busy := rfl
@[simp] theorem dirOut_fault : (dirOut s).fault = s.fault := rfl
@[simp] theorem dirOut_cfgVsel : (dirOut s).cfgVsel = s.cfgVsel := rfl
@[simp] theorem dirOut_cfgRstMode : (dirOut s).cfgRstMode = s.cfgRstMode := rfl
@[simp] theorem dirOut_cfgTimeout : (dirOut s).cfgTimeout = s.cfgTimeout := rfl
@[simp] theorem dirOut_tmr : (dirOut s).tmr = s.tmr := rfl
@[simp] theorem dirOut_mcnt : (dirOut s).mcnt = s.mcnt := rfl
@[simp] theorem dirOut_todo : (dirOut s).todo = s.todo := rfl
@[simp] theorem dirOut_reply : (dirOut s).reply = s.reply := rfl
@[simp] theorem dirOut_trace : (dirOut s).trace = s.trace ++ [.dir true] := rfl
@[simp] theorem dirOut_inbox : (dirOut s).inbox = s.inbox := rfl
@[simp] theorem dirOut_samples : (dirOut s).samples = s.samples := rfl
@[simp] theorem dirOut_edges : (dirOut s).edges = s.edges := rfl
@[simp] theorem dirOut_polls : (dirOut s).polls = s.polls := rfl

@[simp] theorem pulse_sclk : (pulse s).sclk = false := rfl
@[simp] theorem pulse_sdataOut : (pulse s).sdataOut = s.sdataOut := rfl
@[simp] theorem pulse_sdataOe : (pulse s).sdataOe = s.sdataOe := rfl
@[simp] theorem pulse_xres : (pulse s).xres = s.xres := rfl
@[simp] theorem pulse_pwrEn : (pulse s).pwrEn = s.pwrEn := rfl
@[simp] theorem pulse_rdata : (pulse s).rdata = s.rdata := rfl
@[simp] theorem pulse_rdvalid : (pulse s).rdvalid = s.rdvalid := rfl
@[simp] theorem pulse_rdlog : (pulse s).rdlog = s.rdlog := rfl
@[simp] theorem pulse_pc : (pulse s).pc = s.pc := rfl
@[simp] theorem pulse_vlen : (pulse s).vlen = s.vlen := rfl
@[simp] theorem pulse_vselId : (pulse s).vselId = s.vselId := rfl
@[simp] theorem pulse_vbuf : (pulse s).vbuf = s.vbuf := rfl
@[simp] theorem pulse_hs : (pulse s).hs = s.hs := rfl
@[simp] theorem pulse_busy : (pulse s).busy = s.busy := rfl
@[simp] theorem pulse_fault : (pulse s).fault = s.fault := rfl
@[simp] theorem pulse_cfgVsel : (pulse s).cfgVsel = s.cfgVsel := rfl
@[simp] theorem pulse_cfgRstMode : (pulse s).cfgRstMode = s.cfgRstMode := rfl
@[simp] theorem pulse_cfgTimeout : (pulse s).cfgTimeout = s.cfgTimeout := rfl
@[simp] theorem pulse_tmr : (pulse s).tmr = s.tmr := rfl
@[simp] theorem pulse_mcnt : (pulse s).mcnt = s.mcnt := rfl
@[simp] theorem pulse_todo : (pulse s).todo = s.todo := rfl
@[simp] theorem pulse_reply : (pulse s).reply = s.reply := rfl
@[simp] theorem pulse_trace : (pulse s).trace = s.trace ++ [.p] := rfl
@[simp] theorem pulse_inbox : (pulse s).inbox = s.inbox := rfl
@[simp] theorem pulse_samples : (pulse s).samples = s.samples := rfl
@[simp] theorem pulse_edges : (pulse s).edges = s.edges := rfl
@[simp] theorem pulse_polls : (pulse s).polls = s.polls := rfl

@[simp] theorem setXres_sclk (on : Bool) : (setXres on s).sclk = s.sclk := rfl
@[simp] theorem setXres_sdataOut (on : Bool) : (setXres on s).sdataOut = s.sdataOut := rfl
@[simp] theorem setXres_sdataOe (on : Bool) : (setXres on s).sdataOe = s.sdataOe := rfl
@[simp] theorem setXres_xres (on : Bool) : (setXres on s).xres = on := rfl
@[simp] theorem setXres_pwrEn (on : Bool) : (setXres on s).pwrEn = s.pwrEn := rfl
@[simp] theorem setXres_rdata (on : Bool) : (setXres on s).rdata = s.rdata := rfl
@[simp] theorem setXres_rdvalid (on : Bool) : (setXres on s).rdvalid = s.rdvalid := rfl
@[simp] theorem setXres_rdlog (on : Bool) : (setXres on s).rdlog = s.rdlog := rfl
@[simp] theorem setXres_pc (on : Bool) : (setXres on s).pc = s.pc := rfl
@[simp] theorem setXres_vlen (on : Bool) : (setXres on s).vlen = s.vlen := rfl
@[simp] theorem setXres_vselId (on : Bool) : (setXres on s).vselId = s.vselId := rfl
@[simp] theorem setXres_vbuf (on : Bool) : (setXres on s).vbuf = s.vbuf := rfl
@[simp] theorem setXres_hs (on : Bool) : (setXres on s).hs = s.hs := rfl
@[simp] theorem setXres_busy (on : Bool) : (setXres on s).busy = s.busy := rfl
@[simp] theorem setXres_fault (on : Bool) : (setXres on s).fault = s.fault := rfl
@[simp] theorem setXres_cfgVsel (on : Bool) : (setXres on s).cfgVsel = s.cfgVsel := rfl
@[simp] theorem setXres_cfgRstMode (on : Bool) : (setXres on s).cfgRstMode = s.cfgRstMode := rfl
@[simp] theorem setXres_cfgTimeout (on : Bool) : (setXres on s).cfgTimeout = s.cfgTimeout := rfl
@[simp] theorem setXres_tmr (on : Bool) : (setXres on s).tmr = s.tmr := rfl
@[simp] theorem setXres_mcnt (on : Bool) : (setXres on s).mcnt = s.mcnt := rfl
@[simp] theorem setXres_todo (on : Bool) : (setXres on s).todo = s.todo := rfl
@[simp] theorem setXres_reply (on : Bool) : (setXres on s).reply = s.reply := rfl
@[simp] theorem setXres_trace (on : Bool) : (setXres on s).trace = s.trace ++ [.x on] := rfl
@[simp] theorem setXres_inbox (on : Bool) : (setXres on s).inbox = s.inbox := rfl
@[simp] theorem setXres_samples (on : Bool) : (setXres on s).samples = s.samples := rfl
@[simp] theorem setXres_edges (on : Bool) : (setXres on s).edges = s.edges := rfl
@[simp] theorem setXres_polls (on : Bool) : (setXres on s).polls = s.polls := rfl

@[simp] theorem setPower_sclk (on : Bool) : (setPower on s).sclk = s.sclk := rfl
@[simp] theorem setPower_sdataOut (on : Bool) : (setPower on s).sdataOut = s.sdataOut := rfl
@[simp] theorem setPower_sdataOe (on : Bool) : (setPower on s).sdataOe = s.sdataOe := rfl
@[simp] theorem setPower_xres (on : Bool) : (setPower on s).xres = s.xres := rfl
@[simp] theorem setPower_pwrEn (on : Bool) : (setPower on s).pwrEn = on := rfl
@[simp] theorem setPower_rdata (on : Bool) : (setPower on s).rdata = s.rdata := rfl
@[simp] theorem setPower_rdvalid (on : Bool) : (setPower on s).rdvalid = s.rdvalid := rfl
@[simp] theorem setPower_rdlog (on : Bool) : (setPower on s).rdlog = s.rdlog := rfl
@[simp] theorem setPower_pc (on : Bool) : (setPower on s).pc = s.pc := rfl
@[simp] theorem setPower_vlen (on : Bool) : (setPower on s).vlen = s.vlen := rfl
@[simp] theorem setPower_vselId (on : Bool) : (setPower on s).vselId = s.vselId := rfl
@[simp] theorem setPower_vbuf (on : Bool) : (setPower on s).vbuf = s.vbuf := rfl
@[simp] theorem setPower_hs (on : Bool) : (setPower on s).hs = s.hs := rfl
@[simp] theorem setPower_busy (on : Bool) : (setPower on s).busy = s.busy := rfl
@[simp] theorem setPower_fault (on : Bool) : (setPower on s).fault = s.fault := rfl
@[simp] theorem setPower_cfgVsel (on : Bool) : (setPower on s).cfgVsel = s.cfgVsel := rfl
@[simp] theorem setPower_cfgRstMode (on : Bool) : (setPower on s).cfgRstMode = s.cfgRstMode := rfl
@[simp] theorem setPower_cfgTimeout (on : Bool) : (setPower on s).cfgTimeout = s.cfgTimeout := rfl
@[simp] theorem setPower_tmr (on : Bool) : (setPower on s).tmr = s.tmr := rfl
@[simp] theorem setPower_mcnt (on : Bool) : (setPower on s).mcnt = s.mcnt := rfl
@[simp] theorem setPower_todo (on : Bool) : (setPower on s).todo = s.todo := rfl
@[simp] theorem setPower_reply (on : Bool) : (setPower on s).reply = s.reply := rfl
@[simp] theorem setPower_trace (on : Bool) : (setPower on s).trace = s.trace ++ [.pw on] := rfl
@[simp] theorem setPower_inbox (on : Bool) : (setPower on s).inbox = s.inbox := rfl
@[simp] theorem setPower_samples (on : Bool) : (setPower on s).samples = s.samples := rfl
@[simp] theorem setPower_edges (on : Bool) : (setPower on s).edges = s.edges := rfl
@[simp] theorem setPower_polls (on : Bool) : (setPower on s).polls = s.polls := rfl

@[simp] theorem delayFor_sclk (t : Nat) : (delayFor t s).sclk = s.sclk := rfl
@[simp] theorem delayFor_sdataOut (t : Nat) : (delayFor t s).sdataOut = s.sdataOut := rfl
@[simp] theorem delayFor_sdataOe (t : Nat) : (delayFor t s).sdataOe = s.sdataOe := rfl
@[simp] theorem delayFor_xres (t : Nat) : (delayFor t s).xres = s.xres := rfl
@[simp] theorem delayFor_pwrEn (t : Nat) : (delayFor t s).pwrEn = s.pwrEn := rfl
@[simp] theorem delayFor_rdata (t : Nat) : (delayFor t s).rdata = s.rdata := rfl
@[simp] theorem delayFor_rdvalid (t : Nat) : (delayFor t s).rdvalid = s.rdvalid := rfl
@[simp] theorem delayFor_rdlog (t : Nat) : (delayFor t s).rdlog = s.rdlog := rfl
@[simp] theorem delayFor_pc (t : Nat) : (delayFor t s).pc = s.pc := rfl
@[simp] theorem delayFor_vlen (t : Nat) : (delayFor t s).vlen = s.vlen := rfl
@[simp] theorem delayFor_vselId (t : Nat) : (delayFor t s).vselId = s.vselId := rfl
@[simp] theorem delayFor_vbuf (t : Nat) : (delayFor t s).vbuf = s.vbuf := rfl
@[simp] theorem delayFor_hs (t : Nat) : (delayFor t s).hs = s.hs := rfl
@[simp] theorem delayFor_busy (t : Nat) : (delayFor t s).busy = s.busy := rfl
@[simp] theorem delayFor_fault (t : Nat) : (delayFor t s).fault = s.fault := rfl
@[simp] theorem delayFor_cfgVsel (t : Nat) : (delayFor t s).cfgVsel = s.cfgVsel := rfl
@[simp] theorem delayFor_cfgRstMode (t : Nat) : (delayFor t s).cfgRstMode = s.cfgRstMode := rfl
@[simp] theorem delayFor_cfgTimeout (t : Nat) : (delayFor t s).cfgTimeout = s.cfgTimeout := rfl
@[simp] theorem delayFor_tmr (t : Nat) : (delayFor t s).tmr = s.tmr := rfl
@[simp] theorem delayFor_mcnt (t : Nat) : (delayFor t s).mcnt = s.mcnt := rfl
@[simp] theorem delayFor_todo (t : Nat) : (delayFor t s).todo = s.todo := rfl
@[simp] theorem delayFor_reply (t : Nat) : (delayFor t s).reply = s.reply := rfl
@[simp] theorem delayFor_trace (t : Nat) : (delayFor t s).trace = s.trace ++ [.w t] := rfl
@[simp] theorem delayFor_inbox (t : Nat) : (delayFor t s).inbox = s.inbox := rfl
@[simp] theorem delayFor_samples (t : Nat) : (delayFor t s).samples = s.samples := rfl
@[simp] theorem delayFor_edges (t : Nat) : (delayFor t s).edges = s.edges := rfl
@[simp] theorem delayFor_polls (t : Nat) : (delayFor t s).polls = s.polls := rfl

@[simp] theorem advance_sclk (n : Nat) : (advance n s).sclk = s.sclk := rfl
@[simp] theorem advance_sdataOut (n : Nat) : (advance n s).sdataOut = s.sdataOut := rfl
@[simp] theorem advance_sdataOe (n : Nat) : (advance n s).sdataOe = s.sdataOe := rfl
@[simp] theorem advance_xres (n : Nat) : (advance n s).xres = s.xres := rfl
@[simp] theorem advance_pwrEn (n : Nat) : (advance n s).pwrEn = s.pwrEn := rfl
@[simp] theorem advance_rdata (n : Nat) : (advance n s).rdata = s.rdata := rfl
@[simp] theorem advance_rdvalid (n : Nat) : (advance n s).rdvalid = s.rdvalid := rfl
@[simp] theorem advance_rdlog (n : Nat) : (advance n s).rdlog = s.rdlog := rfl
@[simp] theorem advance_pc (n : Nat) : (advance n s).pc = s.pc + n := rfl
@[simp] theorem advance_vlen (n : Nat) : (advance n s).vlen = s.vlen := rfl
@[simp] theorem advance_vselId (n : Nat) : (advance n s).vselId = s.vselId := rfl
@[simp] theorem advance_vbuf (n : Nat) : (advance n s).vbuf = s.vbuf := rfl
@[simp] theorem advance_hs (n : Nat) : (advance n s).hs = s.hs := rfl
@[simp] theorem advance_busy (n : Nat) : (advance n s).busy = s.busy := rfl
@[simp] theorem advance_fault (n : Nat) : (advance n s).fault = s.fault := rfl
@[simp] theorem advance_cfgVsel (n : Nat) : (advance n s).cfgVsel = s.cfgVsel := rfl
@[simp] theorem advance_cfgRstMode (n : Nat) : (advance n s).cfgRstMode = s.cfgRstMode := rfl
@[simp] theorem advance_cfgTimeout (n : Nat) : (advance n s).cfgTimeout = s.cfgTimeout := rfl
@[simp] theorem advance_tmr (n : Nat) : (advance n s).tmr = s.tmr := rfl
@[simp] theorem advance_mcnt (n : Nat) : (advance n s).mcnt = s.mcnt := rfl
@[simp] theorem advance_todo (n : Nat) : (advance n s).todo = s.todo := rfl
@[simp] theorem advance_reply (n : Nat) : (advance n s).reply = s.reply := rfl
@[simp] theorem advance_trace (n : Nat) : (advance n s).trace = s.trace := rfl
@[simp] theorem advance_inbox (n : Nat) : (advance n s).inbox = s.inbox := rfl
@[simp] theorem advance_samples (n : Nat) : (advance n s).samples = s.samples := rfl
@[simp] theorem advance_edges (n : Nat) : (advance n s).edges = s.edges := rfl
@[simp] theorem advance_polls (n : Nat) : (advance n s).polls = s.polls := rfl

@[simp] theorem setReadData_sclk (r : Byte) : (setReadData r s).sclk = s.sclk := rfl
@[simp] theorem setReadData_sdataOut (r : Byte) : (setReadData r s).sdataOut = s.sdataOut := rfl
@[simp] theorem setReadData_sdataOe (r : Byte) : (setReadData r s).sdataOe = s.sdataOe := rfl
@[simp] theorem setReadData_xres (r : Byte) : (setReadData r s).xres = s.xres := rfl
@[simp] theorem setReadData_pwrEn (r : Byte) : (setReadData r s).pwrEn = s.pwrEn := rfl
@[simp] theorem setReadData_rdata (r : Byte) : (setReadData r s).rdata = r := rfl
@[simp] theorem setReadData_rdvalid (r : Byte) : (setReadData r s).rdvalid = true := rfl
@[simp] theorem setReadData_rdlog (r : Byte) : (setReadData r s).rdlog = s.rdlog := rfl
@[simp] theorem setReadData_pc (r : Byte) : (setReadData r s).pc = s.pc := rfl
@[simp] theorem setReadData_vlen (r : Byte) : (setReadData r s).vlen = s.vlen := rfl
@[simp] theorem setReadData_vselId (r : Byte) : (setReadData r s).vselId = s.vselId := rfl
@[simp] theorem setReadData_vbuf (r : Byte) : (setReadData r s).vbuf = s.vbuf := rfl
@[simp] theorem setReadData_hs (r : Byte) : (setReadData r s).hs = s.hs := rfl
@[simp] theorem setReadData_busy (r : Byte) : (setReadData r s).busy = s.busy := rfl
@[simp] theorem setReadData_fault (r : Byte) : (setReadData r s).fault = s.fault := rfl
@[simp] theorem setReadData_cfgVsel (r : Byte) : (setReadData r s).cfgVsel = s.cfgVsel := rfl
@[simp] theorem setReadData_cfgRstMode (r : Byte) : (setReadData r s).cfgRstMode = s.cfgRstMode := rfl
@[simp] theorem setReadData_cfgTimeout (r : Byte) : (setReadData r s).cfgTimeout = s.cfgTimeout := rfl
@[simp] theorem setReadData_tmr (r : Byte) : (setReadData r s).tmr = s.tmr := rfl
@[simp] theorem setReadData_mcnt (r : Byte) : (setReadData r s).mcnt = s.mcnt := rfl
@[simp] theorem setReadData_todo (r : Byte) : (setReadData r s).todo = s.todo := rfl
@[simp] theorem setReadData_reply (r : Byte) : (setReadData r s).reply = s.reply := rfl
@[simp] theorem setReadData_trace (r : Byte) : (setReadData r s).trace = s.trace := rfl
@[simp] theorem setReadData_inbox (r : Byte) : (setReadData r s).inbox = s.inbox := rfl
@[simp] theorem setReadData_samples (r : Byte) : (setReadData r s).samples = s.samples := rfl
@[simp] theorem setReadData_edges (r : Byte) : (setReadData r s).edges = s.edges := rfl
@[simp] theorem setReadData_polls (r : Byte) : (setReadData r s).polls = s.polls := rfl

@[simp] theorem emitResult_sclk (o : Opc) (a r : Byte) : (emitResult o a r s).sclk = s.sclk := rfl
@[simp] theorem emitResult_sdataOut (o : Opc) (a r : Byte) : (emitResult o a r s).sdataOut = s.sdataOut := rfl
@[simp] theorem emitResult_sdataOe (o : Opc) (a r : Byte) : (emitResult o a r s).sdataOe = s.sdataOe := rfl
@[simp] theorem emitResult_xres (o : Opc) (a r : Byte) : (emitResult o a r s).xres = s.xres := rfl
@[simp] theorem emitResult_pwrEn (o : Opc) (a r : Byte) : (emitResult o a r s).pwrEn = s.pwrEn := rfl
@[simp] theorem emitResult_rdata (o : Opc) (a r : Byte) : (emitResult o a r s).rdata = s.rdata := rfl
@[simp] theorem emitResult_rdvalid (o : Opc) (a r : Byte) : (emitResult o a r s).rdvalid = s.rdvalid := rfl
@[simp] theorem emitResult_rdlog (o : Opc) (a r : Byte) : (emitResult o a r s).rdlog = s.rdlog ++ [ReadRec.mk o a r] := rfl
@[simp] theorem emitResult_pc (o : Opc) (a r : Byte) : (emitResult o a r s).pc = s.pc := rfl
@[simp] theorem emitResult_vlen (o : Opc) (a r : Byte) : (emitResult o a r s).vlen = s.vlen := rfl
@[simp] theorem emitResult_vselId (o : Opc) (a r : Byte) : (emitResult o a r s).vselId = s.vselId := rfl
@[simp] theorem emitResult_vbuf (o : Opc) (a r : Byte) : (emitResult o a r s).vbuf = s.vbuf := rfl
@[simp] theorem emitResult_hs (o : Opc) (a r : Byte) : (emitResult o a r s).hs = s.hs := rfl
@[simp] theorem emitResult_busy (o : Opc) (a r : Byte) : (emitResult o a r s).busy = s.busy := rfl
@[simp] theorem emitResult_fault (o : Opc) (a r : Byte) : (emitResult o a r s).fault = s.fault := rfl
@[simp] theorem emitResult_cfgVsel (o : Opc) (a r : Byte) : (emitResult o a r s).cfgVsel = s.cfgVsel := rfl
@[simp] theorem emitResult_cfgRstMode (o : Opc) (a r : Byte) : (emitResult o a r s).cfgRstMode = s.cfgRstMode := rfl
@[simp] theorem emitResult_cfgTimeout (o : Opc) (a r : Byte) : (emitResult o a r s).cfgTimeout = s.cfgTimeout := rfl
@[simp] theorem emitResult_tmr (o : Opc) (a r : Byte) : (emitResult o a r s).tmr = s.tmr := rfl
@[simp] theorem emitResult_mcnt (o : Opc) (a r : Byte) : (emitResult o a r s).mcnt = s.mcnt := rfl
@[simp] theorem emitResult_todo (o : Opc) (a r : Byte) : (emitResult o a r s).todo = s.todo := rfl
@[simp] theorem emitResult_reply (o : Opc) (a r : Byte) : (emitResult o a r s).reply = s.reply := rfl
@[simp] theorem emitResult_trace (o : Opc) (a r : Byte) : (emitResult o a r s).trace = s.trace := rfl
@[simp] theorem emitResult_inbox (o : Opc) (a r : Byte) : (emitResult o a r s).inbox = s.inbox := rfl
@[simp] theorem emitResult_samples (o : Opc) (a r : Byte) : (emitResult o a r s).samples = s.samples := rfl
@[simp] theorem emitResult_edges (o : Opc) (a r : Byte) : (emitResult o a r s).edges = s.edges := rfl
@[simp] theorem emitResult_polls (o : Opc) (a r : Byte) : (emitResult o a r s).polls = s.polls := rfl

@[simp] theorem loadVector_sclk (v : VecSel) (bs : List Byte) : (loadVector v bs s).sclk = s.sclk := rfl
@[simp] theorem loadVector_sdataOut (v : VecSel) (bs : List Byte) : (loadVector v bs s).sdataOut = s.sdataOut := rfl
@[simp] theorem loadVector_sdataOe (v : VecSel) (bs : List Byte) : (loadVector v bs s).sdataOe = s.sdataOe := rfl
@[simp] theorem loadVector_xres (v : VecSel) (bs : List Byte) : (loadVector v bs s).xres = s.xres := rfl
@[simp] theorem loadVector_pwrEn (v : VecSel) (bs : List Byte) : (loadVector v bs s).pwrEn = s.pwrEn := rfl
@[simp] theorem loadVector_rdata (v : VecSel) (bs : List Byte) : (loadVector v bs s).rdata = s.rdata := rfl
@[simp] theorem loadVector_rdvalid (v : VecSel) (bs : List Byte) : (loadVector v bs s).rdvalid = s.rdvalid := rfl
@[simp] theorem loadVector_rdlog (v : VecSel) (bs : List Byte) : (loadVector v bs s).rdlog = s.rdlog := rfl
@[simp] theorem loadVector_pc (v : VecSel) (bs : List Byte) : (loadVector v bs s).pc = 0 := rfl
@[simp] theorem loadVector_vlen (v : VecSel) (bs : List Byte) : (loadVector v bs s).vlen = bs.length := rfl
@[simp] theorem loadVector_vselId (v : VecSel) (bs : List Byte) : (loadVector v bs s).vselId = v := rfl
@[simp] theorem loadVector_vbuf (v : VecSel) (bs : List Byte) : (loadVector v bs s).vbuf = Memory.ofBytes bs := rfl
@[simp] theorem loadVector_hs (v : VecSel) (bs : List Byte) : (loadVector v bs s).hs = s.hs := rfl
@[simp] theorem loadVector_busy (v : VecSel) (bs : List Byte) : (loadVector v bs s).busy = s.busy := rfl
@[simp] theorem loadVector_fault (v : VecSel) (bs : List Byte) : (loadVector v bs s).fault = s.fault := rfl
@[simp] theorem loadVector_cfgVsel (v : VecSel) (bs : List Byte) : (loadVector v bs s).cfgVsel = s.cfgVsel := rfl
@[simp] theorem loadVector_cfgRstMode (v : VecSel) (bs : List Byte) : (loadVector v bs s).cfgRstMode = s.cfgRstMode := rfl
@[simp] theorem loadVector_cfgTimeout (v : VecSel) (bs : List Byte) : (loadVector v bs s).cfgTimeout = s.cfgTimeout := rfl
@[simp] theorem loadVector_tmr (v : VecSel) (bs : List Byte) : (loadVector v bs s).tmr = s.tmr := rfl
@[simp] theorem loadVector_mcnt (v : VecSel) (bs : List Byte) : (loadVector v bs s).mcnt = s.mcnt := rfl
@[simp] theorem loadVector_todo (v : VecSel) (bs : List Byte) : (loadVector v bs s).todo = s.todo := rfl
@[simp] theorem loadVector_reply (v : VecSel) (bs : List Byte) : (loadVector v bs s).reply = s.reply := rfl
@[simp] theorem loadVector_trace (v : VecSel) (bs : List Byte) : (loadVector v bs s).trace = s.trace := rfl
@[simp] theorem loadVector_inbox (v : VecSel) (bs : List Byte) : (loadVector v bs s).inbox = s.inbox := rfl
@[simp] theorem loadVector_samples (v : VecSel) (bs : List Byte) : (loadVector v bs s).samples = s.samples := rfl
@[simp] theorem loadVector_edges (v : VecSel) (bs : List Byte) : (loadVector v bs s).edges = s.edges := rfl
@[simp] theorem loadVector_polls (v : VecSel) (bs : List Byte) : (loadVector v bs s).polls = s.polls := rfl

@[simp] theorem raise_sclk (f : FaultReg) : (raise f s).sclk = s.sclk := rfl
@[simp] theorem raise_sdataOut (f : FaultReg) : (raise f s).sdataOut = s.sdataOut := rfl
@[simp] theorem raise_sdataOe (f : FaultReg) : (raise f s).sdataOe = s.sdataOe := rfl
@[simp] theorem raise_xres (f : FaultReg) : (raise f s).xres = s.xres := rfl
@[simp] theorem raise_pwrEn (f : FaultReg) : (raise f s).pwrEn = s.pwrEn := rfl
@[simp] theorem raise_rdata (f : FaultReg) : (raise f s).rdata = s.rdata := rfl
@[simp] theorem raise_rdvalid (f : FaultReg) : (raise f s).rdvalid = s.rdvalid := rfl
@[simp] theorem raise_rdlog (f : FaultReg) : (raise f s).rdlog = s.rdlog := rfl
@[simp] theorem raise_pc (f : FaultReg) : (raise f s).pc = s.pc := rfl
@[simp] theorem raise_vlen (f : FaultReg) : (raise f s).vlen = s.vlen := rfl
@[simp] theorem raise_vselId (f : FaultReg) : (raise f s).vselId = s.vselId := rfl
@[simp] theorem raise_vbuf (f : FaultReg) : (raise f s).vbuf = s.vbuf := rfl
@[simp] theorem raise_hs (f : FaultReg) : (raise f s).hs = s.hs := rfl
@[simp] theorem raise_busy (f : FaultReg) : (raise f s).busy = false := rfl
@[simp] theorem raise_fault (f : FaultReg) : (raise f s).fault = f := rfl
@[simp] theorem raise_cfgVsel (f : FaultReg) : (raise f s).cfgVsel = s.cfgVsel := rfl
@[simp] theorem raise_cfgRstMode (f : FaultReg) : (raise f s).cfgRstMode = s.cfgRstMode := rfl
@[simp] theorem raise_cfgTimeout (f : FaultReg) : (raise f s).cfgTimeout = s.cfgTimeout := rfl
@[simp] theorem raise_tmr (f : FaultReg) : (raise f s).tmr = s.tmr := rfl
@[simp] theorem raise_mcnt (f : FaultReg) : (raise f s).mcnt = s.mcnt := rfl
@[simp] theorem raise_todo (f : FaultReg) : (raise f s).todo = [] := rfl
@[simp] theorem raise_reply (f : FaultReg) : (raise f s).reply = some (.fault f) := rfl
@[simp] theorem raise_trace (f : FaultReg) : (raise f s).trace = s.trace := rfl
@[simp] theorem raise_inbox (f : FaultReg) : (raise f s).inbox = s.inbox := rfl
@[simp] theorem raise_samples (f : FaultReg) : (raise f s).samples = s.samples := rfl
@[simp] theorem raise_edges (f : FaultReg) : (raise f s).edges = s.edges := rfl
@[simp] theorem raise_polls (f : FaultReg) : (raise f s).polls = s.polls := rfl

@[simp] theorem startPollClock_sclk : (startPollClock s).sclk = s.sclk := rfl
@[simp] theorem startPollClock_sdataOut : (startPollClock s).sdataOut = s.sdataOut := rfl
@[simp] theorem startPollClock_sdataOe : (startPollClock s).sdataOe = s.sdataOe := rfl
@[simp] theorem startPollClock_xres : (startPollClock s).xres = s.xres := rfl
@[simp] theorem startPollClock_pwrEn : (startPollClock s).pwrEn = s.pwrEn := rfl
@[simp] theorem startPollClock_rdata : (startPollClock s).rdata = s.rdata := rfl
@[simp] theorem startPollClock_rdvalid : (startPollClock s).rdvalid = s.rdvalid := rfl
@[simp] theorem startPollClock_rdlog : (startPollClock s).rdlog = s.rdlog := rfl
@[simp] theorem startPollClock_pc : (startPollClock s).pc = s.pc := rfl
@[simp] theorem startPollClock_vlen : (startPollClock s).vlen = s.vlen := rfl
@[simp] theorem startPollClock_vselId : (startPollClock s).vselId = s.vselId := rfl
@[simp] theorem startPollClock_vbuf : (startPollClock s).vbuf = s.vbuf := rfl
@[simp] theorem startPollClock_hs : (startPollClock s).hs = s.hs := rfl
@[simp] theorem startPollClock_busy : (startPollClock s).busy = s.busy := rfl
@[simp] theorem startPollClock_fault : (startPollClock s).fault = s.fault := rfl
@[simp] theorem startPollClock_cfgVsel : (startPollClock s).cfgVsel = s.cfgVsel := rfl
@[simp] theorem startPollClock_cfgRstMode : (startPollClock s).cfgRstMode = s.cfgRstMode := rfl
@[simp] theorem startPollClock_cfgTimeout : (startPollClock s).cfgTimeout = s.cfgTimeout := rfl
@[simp] theorem startPollClock_tmr : (startPollClock s).tmr = .armedHigh := rfl
@[simp] theorem startPollClock_mcnt : (startPollClock s).mcnt = s.mcnt := rfl
@[simp] theorem startPollClock_todo : (startPollClock s).todo = s.todo := rfl
@[simp] theorem startPollClock_reply : (startPollClock s).reply = s.reply := rfl
@[simp] theorem startPollClock_trace : (startPollClock s).trace = s.trace := rfl
@[simp] theorem startPollClock_inbox : (startPollClock s).inbox = s.inbox := rfl
@[simp] theorem startPollClock_samples : (startPollClock s).samples = s.samples := rfl
@[simp] theorem startPollClock_edges : (startPollClock s).edges = s.edges := rfl
@[simp] theorem startPollClock_polls : (startPollClock s).polls = s.polls := rfl

@[simp] theorem stopPollClock_sclk : (stopPollClock s).sclk = false := rfl
@[simp] theorem stopPollClock_sdataOut : (stopPollClock s).sdataOut = s.sdataOut := rfl
@[simp] theorem stopPollClock_sdataOe : (stopPollClock s).sdataOe = s.sdataOe := rfl
@[simp] theorem stopPollClock_xres : (stopPollClock s).xres = s.xres := rfl
@[simp] theorem stopPollClock_pwrEn : (stopPollClock s).pwrEn = s.pwrEn := rfl
@[simp] theorem stopPollClock_rdata : (stopPollClock s).rdata = s.rdata := rfl
@[simp] theorem stopPollClock_rdvalid : (stopPollClock s).rdvalid = s.rdvalid := rfl
@[simp] theorem stopPollClock_rdlog : (stopPollClock s).rdlog = s.rdlog := rfl
@[simp] theorem stopPollClock_pc : (stopPollClock s).pc = s.pc := rfl
@[simp] theorem stopPollClock_vlen : (stopPollClock s).vlen = s.vlen := rfl
@[simp] theorem stopPollClock_vselId : (stopPollClock s).vselId = s.vselId := rfl
@[simp] theorem stopPollClock_vbuf : (stopPollClock s).vbuf = s.vbuf := rfl
@[simp] theorem stopPollClock_hs : (stopPollClock s).hs = s.hs := rfl
@[simp] theorem stopPollClock_busy : (stopPollClock s).busy = s.busy := rfl
@[simp] theorem stopPollClock_fault : (stopPollClock s).fault = s.fault := rfl
@[simp] theorem stopPollClock_cfgVsel : (stopPollClock s).cfgVsel = s.cfgVsel := rfl
@[simp] theorem stopPollClock_cfgRstMode : (stopPollClock s).cfgRstMode = s.cfgRstMode := rfl
@[simp] theorem stopPollClock_cfgTimeout : (stopPollClock s).cfgTimeout = s.cfgTimeout := rfl
@[simp] theorem stopPollClock_tmr : (stopPollClock s).tmr = .idle := rfl
@[simp] theorem stopPollClock_mcnt : (stopPollClock s).mcnt = none := rfl
@[simp] theorem stopPollClock_todo : (stopPollClock s).todo = s.todo := rfl
@[simp] theorem stopPollClock_reply : (stopPollClock s).reply = s.reply := rfl
@[simp] theorem stopPollClock_trace : (stopPollClock s).trace = s.trace := rfl
@[simp] theorem stopPollClock_inbox : (stopPollClock s).inbox = s.inbox := rfl
@[simp] theorem stopPollClock_samples : (stopPollClock s).samples = s.samples := rfl
@[simp] theorem stopPollClock_edges : (stopPollClock s).edges = s.edges := rfl
@[simp] theorem stopPollClock_polls : (stopPollClock s).polls = s.polls := rfl

@[simp] theorem startCommand_sclk (p : List Action) : (startCommand p s).sclk = s.sclk := rfl
@[simp] theorem startCommand_sdataOut (p : List Action) : (startCommand p s).sdataOut = s.sdataOut := rfl
@[simp] theorem startCommand_sdataOe (p : List Action) : (startCommand p s).sdataOe = s.sdataOe := rfl
@[simp] theorem startCommand_xres (p : List Action) : (startCommand p s).xres = s.xres := rfl
@[simp] theorem startCommand_pwrEn (p : List Action) : (startCommand p s).pwrEn = s.pwrEn := rfl
@[simp] theorem startCommand_rdata (p : List Action) : (startCommand p s).rdata = s.rdata := rfl
@[simp] theorem startCommand_rdvalid (p : List Action) : (startCommand p s).rdvalid = s.rdvalid := rfl
@[simp] theorem startCommand_rdlog (p : List Action) : (startCommand p s).rdlog = s.rdlog := rfl
@[simp] theorem startCommand_pc (p : List Action) : (startCommand p s).pc = s.pc := rfl
@[simp] theorem startCommand_vlen (p : List Action) : (startCommand p s).vlen = s.vlen := rfl
@[simp] theorem startCommand_vselId (p : List Action) : (startCommand p s).vselId = s.vselId := rfl
@[simp] theorem startCommand_vbuf (p : List Action) : (startCommand p s).vbuf = s.vbuf := rfl
@[simp] theorem startCommand_hs (p : List Action) : (startCommand p s).hs = s.hs := rfl
@[simp] theorem startCommand_busy (p : List Action) : (startCommand p s).busy = true := rfl
@[simp] theorem startCommand_fault (p : List Action) : (startCommand p s).fault = s.fault := rfl
@[simp] theorem startCommand_cfgVsel (p : List Action) : (startCommand p s).cfgVsel = s.cfgVsel := rfl
@[simp] theorem startCommand_cfgRstMode (p : List Action) : (startCommand p s).cfgRstMode = s.cfgRstMode := rfl
@[simp] theorem startCommand_cfgTimeout (p : List Action) : (startCommand p s).cfgTimeout = s.cfgTimeout := rfl
@[simp] theorem startCommand_tmr (p : List Action) : (startCommand p s).tmr = s.tmr := rfl
@[simp] theorem startCommand_mcnt (p : List Action) : (startCommand p s).mcnt = s.mcnt := rfl
@[simp] theorem startCommand_todo (p : List Action) : (startCommand p s).todo = p := rfl
@[simp] theorem startCommand_reply (p : List Action) : (startCommand p s).reply = none := rfl
@[simp] theorem startCommand_trace (p : List Action) : (startCommand p s).trace = s.trace := rfl
@[simp] theorem startCommand_inbox (p : List Action) : (startCommand p s).inbox = s.inbox := rfl
@[simp] theorem startCommand_samples (p : List Action) : (startCommand p s).samples = s.samples := rfl
@[simp] theorem startCommand_edges (p : List Action) : (startCommand p s).edges = s.edges := rfl
@[simp] theorem startCommand_polls (p : List Action) : (startCommand p s).polls = s.polls := rfl

@[simp] theorem refuse_sclk : (refuse s).sclk = s.sclk := rfl
@[simp] theorem refuse_sdataOut : (refuse s).sdataOut = s.sdataOut := rfl
@[simp] theorem refuse_sdataOe : (refuse s).sdataOe = s.sdataOe := rfl
@[simp] theorem refuse_xres : (refuse s).xres = s.xres := rfl
@[simp] theorem refuse_pwrEn : (refuse s).pwrEn = s.pwrEn := rfl
@[simp] theorem refuse_rdata : (refuse s).rdata = s.rdata := rfl
@[simp] theorem refuse_rdvalid : (refuse s).rdvalid = s.rdvalid := rfl
@[simp] theorem refuse_rdlog : (refuse s).rdlog = s.rdlog := rfl
@[simp] theorem refuse_pc : (refuse s).pc = s.pc := rfl
@[simp] theorem refuse_vlen : (refuse s).vlen = s.vlen := rfl
@[simp] theorem refuse_vselId : (refuse s).vselId = s.vselId := rfl
@[simp] theorem refuse_vbuf : (refuse s).vbuf = s.vbuf := rfl
@[simp] theorem refuse_hs : (refuse s).hs = s.hs := rfl
@[simp] theorem refuse_busy : (refuse s).busy = s.busy := rfl
@[simp] theorem refuse_fault : (refuse s).fault = s.fault := rfl
@[simp] theorem refuse_cfgVsel : (refuse s).cfgVsel = s.cfgVsel := rfl
@[simp] theorem refuse_cfgRstMode : (refuse s).cfgRstMode = s.cfgRstMode := rfl
@[simp] theorem refuse_cfgTimeout : (refuse s).cfgTimeout = s.cfgTimeout := rfl
@[simp] theorem refuse_tmr : (refuse s).tmr = s.tmr := rfl
@[simp] theorem refuse_mcnt : (refuse s).mcnt = s.mcnt := rfl
@[simp] theorem refuse_todo : (refuse s).todo = s.todo := rfl
@[simp] theorem refuse_reply : (refuse s).reply = some .refused := rfl
@[simp] theorem refuse_trace : (refuse s).trace = s.trace := rfl
@[simp] theorem refuse_inbox : (refuse s).inbox = s.inbox := rfl
@[simp] theorem refuse_samples : (refuse s).samples = s.samples := rfl
@[simp] theorem refuse_edges : (refuse s).edges = s.edges := rfl
@[simp] theorem refuse_polls : (refuse s).polls = s.polls := rfl

@[simp] theorem complete_sclk (r : Reply) : (complete r s).sclk = s.sclk := rfl
@[simp] theorem complete_sdataOut (r : Reply) : (complete r s).sdataOut = s.sdataOut := rfl
@[simp] theorem complete_sdataOe (r : Reply) : (complete r s).sdataOe = s.sdataOe := rfl
@[simp] theorem complete_xres (r : Reply) : (complete r s).xres = s.xres := rfl
@[simp] theorem complete_pwrEn (r : Reply) : (complete r s).pwrEn = s.pwrEn := rfl
@[simp] theorem complete_rdata (r : Reply) : (complete r s).rdata = s.rdata := rfl
@[simp] theorem complete_rdvalid (r : Reply) : (complete r s).rdvalid = s.rdvalid := rfl
@[simp] theorem complete_rdlog (r : Reply) : (complete r s).rdlog = s.rdlog := rfl
@[simp] theorem complete_pc (r : Reply) : (complete r s).pc = s.pc := rfl
@[simp] theorem complete_vlen (r : Reply) : (complete r s).vlen = s.vlen := rfl
@[simp] theorem complete_vselId (r : Reply) : (complete r s).vselId = s.vselId := rfl
@[simp] theorem complete_vbuf (r : Reply) : (complete r s).vbuf = s.vbuf := rfl
@[simp] theorem complete_hs (r : Reply) : (complete r s).hs = s.hs := rfl
@[simp] theorem complete_busy (r : Reply) : (complete r s).busy = false := rfl
@[simp] theorem complete_fault (r : Reply) : (complete r s).fault = s.fault := rfl
@[simp] theorem complete_cfgVsel (r : Reply) : (complete r s).cfgVsel = s.cfgVsel := rfl
@[simp] theorem complete_cfgRstMode (r : Reply) : (complete r s).cfgRstMode = s.cfgRstMode := rfl
@[simp] theorem complete_cfgTimeout (r : Reply) : (complete r s).cfgTimeout = s.cfgTimeout := rfl
@[simp] theorem complete_tmr (r : Reply) : (complete r s).tmr = s.tmr := rfl
@[simp] theorem complete_mcnt (r : Reply) : (complete r s).mcnt = s.mcnt := rfl
@[simp] theorem complete_todo (r : Reply) : (complete r s).todo = [] := rfl
@[simp] theorem complete_reply (r : Reply) : (complete r s).reply = some r := rfl
@[simp] theorem complete_trace (r : Reply) : (complete r s).trace = s.trace := rfl
@[simp] theorem complete_inbox (r : Reply) : (complete r s).inbox = s.inbox := rfl
@[simp] theorem complete_samples (r : Reply) : (complete r s).samples = s.samples := rfl
@[simp] theorem complete_edges (r : Reply) : (complete r s).edges = s.edges := rfl
@[simp] theorem complete_polls (r : Reply) : (complete r s).polls = s.polls := rfl

@[simp] theorem acquireStart_sclk : (acquireStart s).sclk = s.sclk := rfl
@[simp] theorem acquireStart_sdataOut : (acquireStart s).sdataOut = s.sdataOut := rfl
@[simp] theorem acquireStart_sdataOe : (acquireStart s).sdataOe = s.sdataOe := rfl
@[simp] theorem acquireStart_xres : (acquireStart s).xres = s.xres := rfl
@[simp] theorem acquireStart_pwrEn : (acquireStart s).pwrEn = s.pwrEn := rfl
@[simp] theorem acquireStart_rdata : (acquireStart s).rdata = s.rdata := rfl
@[simp] theorem acquireStart_rdvalid : (acquireStart s).rdvalid = s.rdvalid := rfl
@[simp] theorem acquireStart_rdlog : (acquireStart s).rdlog = [] := rfl
@[simp] theorem acquireStart_pc : (acquireStart s).pc = s.pc := rfl
@[simp] theorem acquireStart_vlen : (acquireStart s).vlen = s.vlen := rfl
@[simp] theorem acquireStart_vselId : (acquireStart s).vselId = s.vselId := rfl
@[simp] theorem acquireStart_vbuf : (acquireStart s).vbuf = s.vbuf := rfl
@[simp] theorem acquireStart_hs : (acquireStart s).hs = .poweredOff := rfl
@[simp] theorem acquireStart_busy : (acquireStart s).busy = s.busy := rfl
@[simp] theorem acquireStart_fault : (acquireStart s).fault = FaultReg.clear := rfl
@[simp] theorem acquireStart_cfgVsel : (acquireStart s).cfgVsel = s.cfgVsel := rfl
@[simp] theorem acquireStart_cfgRstMode : (acquireStart s).cfgRstMode = s.cfgRstMode := rfl
@[simp] theorem acquireStart_cfgTimeout : (acquireStart s).cfgTimeout = s.cfgTimeout := rfl
@[simp] theorem acquireStart_tmr : (acquireStart s).tmr = s.tmr := rfl
@[simp] theorem acquireStart_mcnt : (acquireStart s).mcnt = s.mcnt := rfl
@[simp] theorem acquireStart_todo : (acquireStart s).todo = s.todo := rfl
@[simp] theorem acquireStart_reply : (acquireStart s).reply = s.reply := rfl
@[simp] theorem acquireStart_trace : (acquireStart s).trace = s.trace := rfl
@[simp] theorem acquireStart_inbox : (acquireStart s).inbox = s.inbox := rfl
@[simp] theorem acquireStart_samples : (acquireStart s).samples = s.samples := rfl
@[simp] theorem acquireStart_edges : (acquireStart s).edges = s.edges := rfl
@[simp] theorem acquireStart_polls : (acquireStart s).polls = s.polls := rfl

end Sys2Proof.Machine
end

