-- ==== Sys2Proof/Laws/PerInstr.lean ====
section
/-! SUPPORT. Statements made instruction by instruction: the host's case split names every constructor. -/

namespace Sys2Proof.Laws

/-- The encoding of a well-formed instruction has its length (R90) and decodes to it, whatever follows (R100, R101). -/
def Encodes.Statement (i : Instr) : Prop :=
  i.wf = true →
    (encode i).length = Machine.instrLength i ∧ ∀ rest, decodeOne (encode i ++ rest) = .instr i rest

theorem Encodes.nop : Encodes.Statement .nop := fun _ => ⟨rfl, fun _ => by simp [encode, decodeOne]⟩

theorem Encodes.wrmem (a v : Byte) : Encodes.Statement (.wrmem a v) :=
  fun _ => ⟨rfl, fun _ => by simp [encode, decodeOne, decodeTriple]⟩

theorem Encodes.rdmem (a x : Byte) : Encodes.Statement (.rdmem a x) :=
  fun _ => ⟨rfl, fun _ => by simp [encode, decodeOne, decodeTriple]⟩

theorem Encodes.wrreg (a v : Byte) : Encodes.Statement (.wrreg a v) :=
  fun _ => ⟨rfl, fun _ => by simp [encode, decodeOne, decodeTriple]⟩

theorem Encodes.rdreg (a x : Byte) : Encodes.Statement (.rdreg a x) :=
  fun _ => ⟨rfl, fun _ => by simp [encode, decodeOne, decodeTriple]⟩

end Sys2Proof.Laws
end

