-- ==== Sys2Proof/Laws/Decode.lean ====
section
/-! SUPPORT. What decoding says once: the first command of a buffer, the fetch window, and one step of `decode`. -/

namespace Sys2Proof

/-- The four first bytes that start a triple, and their instructions. -/
theorem decodeTriple_some {b a v : Byte} {i : Instr} (h : decodeTriple b a v = some i) :
    (b = 0x04#8 ∧ i = .wrmem a v) ∨ (b = 0x05#8 ∧ i = .rdmem a v) ∨ (b = 0x06#8 ∧ i = .wrreg a v) ∨
      (b = 0x07#8 ∧ i = .rdreg a v) := by
  unfold decodeTriple at h
  split at h
  · exact .inl ⟨‹_›, by simpa using h.symm⟩
  · split at h
    · exact .inr (.inl ⟨‹_›, by simpa using h.symm⟩)
    · split at h
      · exact .inr (.inr (.inl ⟨‹_›, by simpa using h.symm⟩))
      · split at h
        · exact .inr (.inr (.inr ⟨‹_›, by simpa using h.symm⟩))
        · simp at h

/-- A zero first byte is a no-op. -/
theorem decodeOne_zero (rest : List Byte) : decodeOne (0x00#8 :: rest) = .instr .nop rest := by
  simp [decodeOne]

/-- A non-zero first byte with two bytes after it is decided by its triple. -/
theorem decodeOne_triple {b0 : Byte} (h : b0 ≠ 0x00#8) (a v : Byte) (rest : List Byte) :
    decodeOne (b0 :: a :: v :: rest) =
      match decodeTriple b0 a v with
      | some i => .instr i rest
      | none => .illegal b0 := by
  cases ht : decodeTriple b0 a v <;> simp [decodeOne, h, ht]

/-- A non-zero first byte with fewer than two bytes after it is a truncated triple. -/
theorem decodeOne_short {b0 : Byte} (h : b0 ≠ 0x00#8) {tl : List Byte} (hl : tl.length < 2) :
    decodeOne (b0 :: tl) = .malformed := by
  match tl with
  | [] => simp [decodeOne, h]
  | [x] => simp [decodeOne, h]
  | _ :: _ :: _ => simp at hl

/-- A buffer whose first command is `i` is that command's bytes and the rest. -/
theorem decodeOne_instr {bs rest : List Byte} {i : Instr} (h : decodeOne bs = .instr i rest) :
    bs = encode i ++ rest := by
  match bs with
  | [] => simp [decodeOne] at h
  | b0 :: tl =>
    by_cases hb : b0 = 0x00#8
    · subst hb
      rw [decodeOne_zero] at h
      obtain ⟨rfl, rfl⟩ := by simpa using h
      rfl
    · match tl with
      | [] => simp [decodeOne_short hb (tl := []) (by simp)] at h
      | [x] => simp [decodeOne_short hb (tl := [x]) (by simp)] at h
      | a :: v :: rest' =>
        rw [decodeOne_triple hb] at h
        cases ht : decodeTriple b0 a v with
        | none => simp [ht] at h
        | some j =>
          obtain ⟨rfl, rfl⟩ := by simpa [ht] using h
          rcases decodeTriple_some ht with ⟨rfl, rfl⟩ | ⟨rfl, rfl⟩ | ⟨rfl, rfl⟩ | ⟨rfl, rfl⟩ <;> rfl

/-- The encoding of any instruction, whatever follows it, is that instruction. -/
theorem decodeOne_encode (i : Instr) (rest : List Byte) : decodeOne (encode i ++ rest) = .instr i rest := by
  cases i with
  | nop => exact (Laws.Encodes.nop rfl).2 rest
  | wrmem a v => exact (Laws.Encodes.wrmem a v rfl).2 rest
  | rdmem a x => exact (Laws.Encodes.rdmem a x rfl).2 rest
  | wrreg a v => exact (Laws.Encodes.wrreg a v rfl).2 rest
  | rdreg a x => exact (Laws.Encodes.rdreg a x rfl).2 rest

/-- The encoding's length is the instruction's. -/
theorem encode_length (i : Instr) : (encode i).length = Machine.instrLength i := by cases i <;> rfl

/-- Three bytes are enough to tell the first command. -/
theorem decodeOne_take_three {bs rest : List Byte} {i : Instr} (h : decodeOne bs = .instr i rest) :
    ∃ r, decodeOne (bs.take 3) = .instr i r := by
  rw [decodeOne_instr h]
  cases i with
  | nop => exact ⟨rest.take 2, decodeOne_encode .nop (rest.take 2)⟩
  | wrmem a v => exact ⟨[], decodeOne_encode (.wrmem a v) []⟩
  | rdmem a x => exact ⟨[], decodeOne_encode (.rdmem a x) []⟩
  | wrreg a v => exact ⟨[], decodeOne_encode (.wrreg a v) []⟩
  | rdreg a x => exact ⟨[], decodeOne_encode (.rdreg a x) []⟩

/-- A truncated triple is one or two bytes, the first not zero. -/
theorem decodeOne_malformed {bs : List Byte} (h : decodeOne bs = .malformed) :
    ∃ b0 tl, bs = b0 :: tl ∧ b0 ≠ 0x00#8 ∧ tl.length < 2 := by
  match bs with
  | [] => simp [decodeOne] at h
  | b0 :: tl =>
    by_cases hb : b0 = 0x00#8
    · subst hb
      simp [decodeOne_zero] at h
    · match tl with
      | [] => exact ⟨b0, [], rfl, hb, by simp⟩
      | [x] => exact ⟨b0, [x], rfl, hb, by simp⟩
      | a :: v :: rest' =>
        rw [decodeOne_triple hb] at h
        cases ht : decodeTriple b0 a v <;> simp [ht] at h

/-- An illegal first byte has two bytes after it and starts no triple. -/
theorem decodeOne_illegal {bs : List Byte} {b : Byte} (h : decodeOne bs = .illegal b) :
    ∃ a v rest, bs = b :: a :: v :: rest ∧ b ≠ 0x00#8 ∧ decodeTriple b a v = none := by
  match bs with
  | [] => simp [decodeOne] at h
  | b0 :: tl =>
    by_cases hb : b0 = 0x00#8
    · subst hb
      simp [decodeOne_zero] at h
    · match tl with
      | [] => simp [decodeOne_short hb (tl := []) (by simp)] at h
      | [x] => simp [decodeOne_short hb (tl := [x]) (by simp)] at h
      | a :: v :: rest' =>
        rw [decodeOne_triple hb] at h
        cases ht : decodeTriple b0 a v with
        | none =>
          obtain rfl := by simpa [ht] using h
          exact ⟨a, v, rest', rfl, hb, ht⟩
        | some j => simp [ht] at h

/-- Decoding goes command by command. -/
theorem decodeFrom_encode (i : Instr) (n : Nat) (rest : List Byte) :
    decodeFrom n (encode i ++ rest) = consCommand i (decodeFrom (n + Machine.instrLength i) rest) := by
  cases i with
  | nop => rw [encode, List.singleton_append, decodeFrom.eq_def]; simp [Machine.instrLength]
  | wrmem a v => simp [encode, decodeFrom, decodeTriple, Machine.instrLength]
  | rdmem a x => simp [encode, decodeFrom, decodeTriple, Machine.instrLength]
  | wrreg a v => simp [encode, decodeFrom, decodeTriple, Machine.instrLength]
  | rdreg a x => simp [encode, decodeFrom, decodeTriple, Machine.instrLength]

/-- A vector that is put before a buffer decodes before it. -/
theorem decodeFrom_encodeVector (is : List Instr) : ∀ (n : Nat) (rest : List Byte),
    decodeFrom n (encodeVector is ++ rest) =
      is.foldr consCommand (decodeFrom (n + (encodeVector is).length) rest) := by
  induction is with
  | nil => intro n rest; simp [encodeVector]
  | cons i is ih =>
    intro n rest
    rw [encodeVector, List.append_assoc, decodeFrom_encode, ih, List.foldr_cons, List.length_append, encode_length,
      Nat.add_assoc]

/-- `decode` of R100 is the decoding of the first command, then of the rest. -/
theorem decodeFrom_step (n : Nat) (bs : List Byte) : decodeFrom n bs = match decodeOne bs with
    | .instr i rest => consCommand i (decodeFrom (n + Machine.instrLength i) rest)
    | .endOfVector => .ok []
    | .malformed => .malformed n
    | .illegal b => .illegal n b := by
  match bs with
  | [] => rfl
  | b0 :: tl =>
    by_cases h : b0 = 0x00#8
    · subst h
      rw [decodeOne_zero, decodeFrom.eq_def]
      simp [Machine.instrLength]
    · match tl with
      | [] => rw [decodeOne_short h (by simp)]; simp [decodeFrom, h]
      | [x] => rw [decodeOne_short h (by simp)]; simp [decodeFrom, h]
      | a :: v :: rest =>
        rw [decodeOne_triple h]
        simp only [decodeFrom, h, if_false]
        cases ht : decodeTriple b0 a v with
        | none => rfl
        | some j => rcases decodeTriple_some ht with ⟨_, rfl⟩ | ⟨_, rfl⟩ | ⟨_, rfl⟩ | ⟨_, rfl⟩ <;> rfl

end Sys2Proof
end

