-- ==== Sys2Proof/Laws/Memory.lean ====
section
/-! SUPPORT. The vector buffer: its canonical form, and that a loaded vector reads back. -/

namespace Sys2Proof.Machine

theorem Memory.wfFrom_mono {lo hi : Nat} (h : lo ≤ hi) : ∀ {m : Memory}, Memory.wfFrom hi m = true → Memory.wfFrom lo m = true
  | [], _ => rfl
  | c :: m, hw => by
    simp only [Memory.wfFrom, Bool.and_eq_true, decide_eq_true_eq] at hw ⊢
    exact ⟨⟨by omega, hw.1.2⟩, hw.2⟩

theorem Memory.ofBytesFrom_wf (bs : List Byte) : ∀ lo, Memory.wfFrom lo (Memory.ofBytesFrom lo bs) = true := by
  induction bs with
  | nil => intro lo; rfl
  | cons b bs ih =>
    intro lo
    by_cases h : b = unlisted
    · simpa [Memory.ofBytesFrom, h] using Memory.wfFrom_mono (Nat.le_succ lo) (ih (lo + 1))
    · simp [Memory.ofBytesFrom, Memory.wfFrom, h, ih (lo + 1)]

/-- Loading a vector keeps the canonical form. -/
theorem Memory.ofBytes_wf (bs : List Byte) : Memory.wf (Memory.ofBytes bs) = true := Memory.ofBytesFrom_wf bs 0

theorem Memory.read_ofBytesFrom_lt (bs : List Byte) : ∀ lo a, a < lo → Memory.read (Memory.ofBytesFrom lo bs) a = unlisted := by
  induction bs with
  | nil => intro lo a _; rfl
  | cons b bs ih =>
    intro lo a h
    by_cases hb : b = unlisted
    · simpa [Memory.ofBytesFrom, hb] using ih (lo + 1) a (by omega)
    · have : lo ≠ a := by omega
      simpa [Memory.ofBytesFrom, hb, Memory.read, this] using ih (lo + 1) a (by omega)

theorem Memory.read_ofBytesFrom (bs : List Byte) :
    ∀ lo k, Memory.read (Memory.ofBytesFrom lo bs) (lo + k) = bs.getD k unlisted := by
  induction bs with
  | nil => intro lo k; simp [Memory.ofBytesFrom, Memory.read]
  | cons b bs ih =>
    intro lo k
    by_cases hb : b = unlisted
    · cases k with
      | zero => simpa [Memory.ofBytesFrom, hb] using Memory.read_ofBytesFrom_lt bs (lo + 1) lo (by omega)
      | succ k => simpa [Memory.ofBytesFrom, hb, Nat.add_assoc, Nat.add_comm 1 k] using ih (lo + 1) k
    · cases k with
      | zero => simp [Memory.ofBytesFrom, hb, Memory.read]
      | succ k =>
        have : lo ≠ lo + (k + 1) := by omega
        simpa [Memory.ofBytesFrom, hb, Memory.read, this, Nat.add_assoc, Nat.add_comm 1 k] using ih (lo + 1) k

/-- A loaded vector reads back, and every address beyond it reads as an unlisted one. -/
theorem Memory.read_ofBytes (bs : List Byte) (k : Nat) :
    Memory.read (Memory.ofBytes bs) k = bs.getD k unlisted := by
  simpa [Memory.ofBytes] using Memory.read_ofBytesFrom bs 0 k

theorem Memory.mem_ofBytesFrom (bs : List Byte) :
    ∀ lo, ∀ c ∈ Memory.ofBytesFrom lo bs, c.1 < lo + bs.length := by
  induction bs with
  | nil => intro lo c hc; simp [Memory.ofBytesFrom] at hc
  | cons b bs ih =>
    intro lo c hc
    have hlen : lo + 1 + bs.length = lo + (b :: bs).length := by simp; omega
    by_cases hb : b = unlisted
    · rw [Memory.ofBytesFrom, if_pos hb] at hc
      exact hlen ▸ ih (lo + 1) c hc
    · rw [Memory.ofBytesFrom, if_neg hb] at hc
      rcases List.mem_cons.1 hc with rfl | hc
      · simp
      · exact hlen ▸ ih (lo + 1) c hc

/-- A loaded vector has no cell at or beyond its length. -/
theorem Memory.mem_ofBytes (bs : List Byte) : ∀ c ∈ Memory.ofBytes bs, c.1 < bs.length := by
  intro c hc
  simpa using Memory.mem_ofBytesFrom bs 0 c hc

/-- `MemRead` reads the buffer below `VLEN` and has no value from there on. -/
theorem memRead_lt {a : Nat} {s : State} (h : a < s.vlen) : memRead a s = some (s.vbuf.read a) := if_pos h

theorem memRead_ge {a : Nat} {s : State} (h : s.vlen ≤ a) : memRead a s = none := if_neg (by omega)

theorem range_map_take_three (f : Nat → Byte) (n : Nat) :
    ((List.range n).map f).take 3 =
      if n = 0 then [] else if n = 1 then [f 0] else if n = 2 then [f 0, f 1] else [f 0, f 1, f 2] := by
  match n with
  | 0 => rfl
  | 1 => rfl
  | 2 => rfl
  | n + 3 => simp [List.range_succ_eq_map, Function.comp_def]

/-- The fetch window is the first three of the bytes that are left. -/
theorem fetchBytes_eq (s : State) : fetchBytes s = (bytesLeft s).take 3 := by
  have h0 := range_map_take_three (fun k => s.vbuf.read (s.pc + k)) (s.vlen - s.pc)
  simp only [bytesLeft, h0]
  rcases Nat.lt_or_ge s.pc s.vlen with h | h
  · rcases Nat.lt_or_ge (s.pc + 1) s.vlen with h1 | h1
    · rcases Nat.lt_or_ge (s.pc + 2) s.vlen with h2 | h2
      · simp [fetchBytes, memRead, h, h1, h2, show s.vlen - s.pc ≠ 0 by omega, show s.vlen - s.pc ≠ 1 by omega,
          show s.vlen - s.pc ≠ 2 by omega]
      · simp [fetchBytes, memRead, h, h1, show ¬ s.pc + 2 < s.vlen by omega, show s.vlen - s.pc = 2 by omega]
    · simp [fetchBytes, memRead, h, show ¬ s.pc + 1 < s.vlen by omega, show s.vlen - s.pc = 1 by omega]
  · simp [fetchBytes, memRead, show ¬ s.pc < s.vlen by omega, show s.vlen - s.pc = 0 by omega]

/-- How many bytes are left. -/
theorem bytesLeft_length (s : State) : (bytesLeft s).length = s.vlen - s.pc := by simp [bytesLeft]

/-- In a loaded vector the bytes left from `PC` on are the vector's own. -/
theorem bytesLeft_ofBytes (s : State) (bs : List Byte) (hm : s.vbuf = Memory.ofBytes bs) (hl : s.vlen = bs.length) :
    bytesLeft s = bs.drop s.pc := by
  apply List.ext_getElem?
  intro k
  simp only [bytesLeft, hm, hl, Memory.read_ofBytes, List.getElem?_map, List.getElem?_drop]
  by_cases h : s.pc + k < bs.length
  · rw [List.getElem?_range (by omega)]
    simp [List.getElem?_eq_getElem h]
  · rw [List.getElem?_eq_none (by simp; omega), List.getElem?_eq_none (by omega)]
    rfl

end Sys2Proof.Machine
end

