-- ==== Sys2Proof/Laws/Serializer.lean ====
section
/-! SUPPORT. What the wire primitives and the serializer do, each said once as the state they leave. -/

namespace Sys2Proof.Machine

theorem pulses_eq (n : Nat) (s : State) :
    pulses n s = { s with sclk := if n = 0 then s.sclk else false, trace := s.trace ++ List.replicate n .p } := by
  induction n generalizing s with
  | zero => simp [pulses]
  | succ n ih => simp [pulses, ih, pulse, emit, setSclk, List.replicate_succ]

theorem shiftBits_eq (bs : List Level) (s : State) :
    shiftBits bs s = { s with
      sclk := if bs = [] then s.sclk else false
      sdataOut := bs.getLastD s.sdataOut
      trace := s.trace ++ bitEvents bs } := by
  induction bs generalizing s with
  | nil => simp [shiftBits, bitEvents]
  | cons b bs ih => simp [shiftBits, ih, bitEvents, pulse, drive, emit, setSclk, List.getLast?_cons]

theorem bitEvents_append (xs ys : List Level) : bitEvents (xs ++ ys) = bitEvents xs ++ bitEvents ys := by
  induction xs with
  | nil => rfl
  | cons x xs ih => simp [bitEvents, ih]

theorem msbBits_length {n : Nat} (v : BitVec n) : (msbBits v).length = n := by simp [msbBits]

/-- The eight bits of a byte in wire order. -/
theorem msbBits_byte (v : Byte) :
    msbBits v = [v.getMsbD 0, v.getMsbD 1, v.getMsbD 2, v.getMsbD 3, v.getMsbD 4, v.getMsbD 5, v.getMsbD 6, v.getMsbD 7] :=
  rfl

/-- The three bits of a wire code in wire order. -/
theorem msbBits_opc (v : Opc) : msbBits v = [v.getMsbD 0, v.getMsbD 1, v.getMsbD 2] := rfl

/-- The state `writeNoOp` leaves (R127). -/
theorem writeNoOp_eq (s : State) :
    writeNoOp s = { s with sclk := false, sdataOut := false, trace := s.trace ++ noOpEvents } := by
  simp [writeNoOp, pulses_eq, Config.noopPulses, noOpEvents, drive, emit]

/-- The state `writeOp` leaves (R124). -/
theorem writeOp_eq (opc : Opc) (a v : Byte) (s : State) :
    writeOp opc a v s = { s with sclk := false, sdataOut := true, trace := s.trace ++ writeEvents opc a v } := by
  simp [writeOp, shiftOut, pulses_eq, shiftBits_eq, Config.trailerPulses, writeEvents, bitEvents_append, drive, emit,
    List.replicate_succ]

/-- The answers of `n` samples, from the state before the first. -/
def sampleAnswers : Nat → State → List Level
  | 0, _ => []
  | n + 1, s => targetAnswer s :: sampleAnswers n (pulse (sample s).2)

theorem sampleAnswers_length (n : Nat) (s : State) : (sampleAnswers n s).length = n := by
  induction n generalizing s with
  | zero => rfl
  | succ n ih => simp [sampleAnswers, ih]

/-- The sampling loop shifts its answers in and leaves their events. -/
theorem sampleLoop_eq (n : Nat) (r : Byte) (s : State) :
    sampleLoop n r s =
      ((sampleAnswers n s).foldl shiftIn r,
        { s with
          sclk := if n = 0 then s.sclk else false
          samples := s.samples.drop n
          trace := s.trace ++ sampleEvents (sampleAnswers n s) }) := by
  induction n generalizing r s with
  | zero => simp [sampleLoop, sampleAnswers, sampleEvents]
  | succ n ih =>
    simp [sampleLoop, sampleAnswers, sampleEvents, ih, sample, emit, pulse, setSclk]

/-- Scripted answers come out of the script. -/
theorem sampleAnswers_script (bits : List Level) : ∀ (rest : List Level) (s : State),
    s.samples = bits ++ rest → sampleAnswers bits.length s = bits := by
  induction bits with
  | nil => intro _ _ _; rfl
  | cons b bits ih =>
    intro rest s h
    have hs : targetAnswer s = b := by simp [targetAnswer, h]
    rw [List.length_cons, sampleAnswers, hs, ih rest]
    simp [sample, h]

/-- The answers a read of `a` with wire code `opc` gets in the state `s`. -/
def readAnswers (opc : Opc) (a : Byte) (s : State) : List Level := sampleAnswers 8 (readStart opc a s)

theorem readAnswers_length (opc : Opc) (a : Byte) (s : State) : (readAnswers opc a s).length = 8 :=
  sampleAnswers_length 8 _

theorem readStart_eq (opc : Opc) (a : Byte) (s : State) :
    readStart opc a s = { s with
      sclk := false, sdataOe := false, sdataOut := a.getLsbD 0
      trace := s.trace ++ (bitEvents (msbBits opc ++ msbBits a) ++ [.dir false, .p, .p]) } := by
  simp [readStart, shiftOut, pulses_eq, shiftBits_eq, Config.primePulses, bitEvents_append, dirIn, emit,
    List.replicate_succ, msbBits_byte, BitVec.getMsbD]

/-- The byte and the state `readOp` leaves (R126). -/
theorem readOp_eq (opc : Opc) (a : Byte) (s : State) :
    readOp opc a s =
      (assembleByte (readAnswers opc a s),
        { s with
          sclk := false, sdataOe := true, sdataOut := a.getLsbD 0
          rdata := assembleByte (readAnswers opc a s), rdvalid := true
          samples := s.samples.drop 8
          trace := s.trace ++ readEvents opc a (readAnswers opc a s) }) := by
  simp [readOp, sampleLoop_eq, readAnswers, Config.readBits, Config.readTailPulses, pulses_eq, dirOut, emit, setReadData,
    readStart_eq, readEvents, assembleByte]

/-- The state a logged read leaves (R158). -/
theorem readAndLog_eq (opc : Opc) (a : Byte) (s : State) :
    readAndLog opc a s = { s with
      sclk := false, sdataOe := true, sdataOut := a.getLsbD 0
      rdata := assembleByte (readAnswers opc a s), rdvalid := true
      rdlog := s.rdlog ++ [ReadRec.mk opc a (assembleByte (readAnswers opc a s))]
      samples := s.samples.drop 8
      trace := s.trace ++ readEvents opc a (readAnswers opc a s) } := by
  simp [readAndLog, readOp_eq, emitResult]

/-- Scripted answers are the answers a read gets. -/
theorem readAnswers_script {bits rest : List Level} (opc : Opc) (a : Byte) {s : State}
    (hl : bits.length = 8) (h : s.samples = bits ++ rest) : readAnswers opc a s = bits := by
  have := sampleAnswers_script bits rest (readStart opc a s) (by simpa [readStart_eq] using h)
  rwa [hl] at this

end Sys2Proof.Machine
end

