-- ==== Sys2Proof/Laws/Poll.lean ====
section
/-! SUPPORT. What the parts of wait-and-poll and of the handshake do, each said once as the state they leave. -/

namespace Sys2Proof.Machine

theorem pollBound_pos (u : Nat) : 1 ≤ pollBound u := by unfold pollBound; omega

theorem pollBound_mono {u v : Nat} (h : u ≤ v) : pollBound u ≤ pollBound v := by
  have : Config.pollPeriodUs = 20 := rfl
  unfold pollBound
  rw [this]
  omega

/-- The drawn pulses stay inside the bound. -/
theorem morePolls_le (bound done : Nat) (s : State) : morePolls bound done s ≤ bound - done := Nat.min_le_right ..

/-- The poll pulses of the rest of a window: only SCLK, the trace and the script of draws change. -/
theorem pollPulses_eq (bound done : Nat) (s : State) :
    pollPulses bound done s = { s with
      sclk := if morePolls bound done s = 0 then s.sclk else false
      polls := s.polls.tail
      trace := s.trace ++ List.replicate (morePolls bound done s) .p } := by
  simp [pollPulses, pulses_eq]

/-- A measurement appends its event and takes an answer off the script. -/
theorem measure_eq (l : Level) (s : State) :
    measure l s = (measureResult l s,
      { s with edges := s.edges.tail, trace := s.trace ++ [.m l (measureResult l s)] }) := rfl

/-- A scripted answer decides how the window ends. -/
theorem measureResult_script {l : Level} {s : State} {e : EdgeAnswer} {es : List EdgeAnswer} (h : s.edges = e :: es) :
    measureResult l s = windowResult (timeoutUs s) e := by
  simp [measureResult, edgeAnswer, h]

/-- The rise window opens: its event, `MCNT = 0`, and two timer expiries before it ends. -/
theorem riseOpen_eq (s : State) :
    riseOpen s = { s with
      mcnt := some 0, edges := s.edges.tail
      todo := .timer :: .timer :: .riseEnd (measureResult true s) :: s.todo
      trace := s.trace ++ [.m true (measureResult true s)] } := rfl

/-- The fall window opens. -/
theorem fallOpen_eq (t1 k1 : Nat) (s : State) :
    fallOpen t1 k1 s = { s with
      mcnt := some 0, edges := s.edges.tail
      todo := .fallEnd t1 k1 (measureResult false s) :: s.todo
      trace := s.trace ++ [.m false (measureResult false s)] } := rfl

/-- The rise window ends with the level seen. -/
theorem riseClose_ok (t : Nat) (s : State) :
    riseClose (.ok t) s = { pollPulses (pollBound t) 1 s with
      mcnt := some t, todo := .fall t (1 + morePolls (pollBound t) 1 s) :: s.todo } := by
  simp [riseClose, windowTime, pollPulses_eq]

/-- The rise window ends with a timeout. -/
theorem riseClose_timeout (s : State) :
    riseClose .timeout s = { pollPulses (pollBound (timeoutUs s)) 1 s with
      mcnt := none, tmr := .idle, sclk := false
      fault := syncFault false, busy := false, todo := [], reply := some (.fault (syncFault false)) } := rfl

/-- The fall window ends with the level seen. -/
theorem fallClose_ok (t1 k1 t : Nat) (s : State) :
    fallClose t1 k1 (.ok t) s = { pollPulses (pollBound (t1 + t)) k1 s with mcnt := some t } := rfl

/-- The fall window ends with a timeout. -/
theorem fallClose_timeout (t1 k1 : Nat) (s : State) :
    fallClose t1 k1 .timeout s = { pollPulses (pollBound (t1 + timeoutUs s)) k1 s with
      mcnt := none, tmr := .idle, sclk := false
      fault := syncFault true, busy := false, todo := [], reply := some (.fault (syncFault true)) } := rfl

end Sys2Proof.Machine
end

