-- ==== Sys2Proof/Laws/Step.lean ====
section
/-! SUPPORT. What one step does: the step of a running block, of an idle one, and runs of several steps. -/

namespace Sys2Proof.Machine

/-- Whether an input is taken depends only on the busy flag and the inbox. -/
theorem noInput_congr {s t : State} (hb : t.busy = s.busy) (hi : t.inbox = s.inbox) : noInput t = noInput s := by
  unfold noInput
  rw [hi]
  cases s.inbox with
  | nil => rfl
  | cons i rest => cases i <;> simp [servedNow, hb]

/-- A running block that takes no input does its next action. -/
theorem stepOn_busy (b : Board) {s : State} (hb : s.busy = true) (hn : noInput s = true) : stepOn b s = runAction b s := by
  unfold stepOn
  cases hi : s.inbox with
  | nil => simp [runOwn, hb]
  | cons i rest =>
    have : servedNow s i = false := by simpa [noInput, hi] using hn
    simp [this]

theorem Running.step (b : Board) {s : State} {a : Action} {rest : List Action} (h : Running s (a :: rest)) :
    stepOn b s = doAction b a { s with todo := rest } := by
  rw [stepOn_busy b h.busy h.noInput, runAction, h.todo]

/-- A state with the same busy flag and inbox is running too. -/
theorem Running.of {s t : State} {todo todo' : List Action} (h : Running s todo) (hb : t.busy = s.busy)
    (hi : t.inbox = s.inbox) (ht : t.todo = todo') : Running t todo' :=
  ⟨hb ▸ h.busy, (noInput_congr hb hi).trans h.noInput, ht⟩

/-- An idle block takes the input it is offered. -/
theorem Offered.step (b : Board) {s : State} {i : HostInput} {rest : List HostInput} (h : Offered s i rest) :
    stepOn b s = serveInput b i { s with inbox := rest } := by
  have : servedNow s i = true := by cases i <;> simp [servedNow, h.busy]
  simp [stepOn, h.inbox, this]

/-- A `wait` lets the block go on by itself. -/
theorem stepOn_wait (b : Board) {s : State} {inb : List HostInput} (h : s.inbox = .wait :: inb) :
    stepOn b s = runOwn b { s with inbox := inb } := by
  simp [stepOn, h, servedNow, serveInput]

/-- The interpreter's turn, whatever follows the run. -/
theorem runAction_run (b : Board) {s : State} {rest : List Action} (h : s.todo = .run :: rest) :
    runAction b s = runVector rest s := by
  rw [runAction, h]
  cases s
  cases h
  rfl

theorem Running.step_run (b : Board) {s : State} {rest : List Action} (h : Running s (.run :: rest)) :
    stepOn b s = runVector rest s := by
  rw [stepOn_busy b h.busy h.noInput, runAction_run b h.todo]

/-- An input that is not taken waits for a busy block. -/
theorem busy_of_not_served {s : State} {i : HostInput} (h : servedNow s i = false) : s.busy = true := by
  cases i <;> simp_all [servedNow]

/-- Everything a block on its own can do: the next action of the running command, the end of a command without actions, or
waiting. -/
theorem runOwn_cases {b : Board} {s t : State} (h : runOwn b s = .next t) :
    (s.busy = true ∧ ∃ a rest, s.todo = a :: rest ∧ doAction b a { s with todo := rest } = .next t) ∨
    (s.busy = true ∧ s.todo = [] ∧ t = complete .done s) ∨ (s.busy = false ∧ t = s) := by
  unfold runOwn at h
  split at h
  · next hb =>
    unfold runAction at h
    split at h
    · next ht => exact .inr (.inl ⟨hb, ht, (Host.Outcome.next.inj h).symm⟩)
    · next a rest ht => exact .inl ⟨hb, a, rest, ht, h⟩
  · next hb => exact .inr (.inr ⟨by simpa using hb, (Host.Outcome.next.inj h).symm⟩)

/-- The block is on its own in the next step, and `inb` is the inbox then: no input can be taken, or the next one is a
`wait`. -/
def OnItsOwn (s : State) (inb : List HostInput) : Prop :=
  (noInput s = true ∧ inb = s.inbox) ∨ s.inbox = .wait :: inb

/-- Everything a step that answers a next state can be: the next action of the running command, the end of a command
without actions, an input other than `wait` that is taken, or waiting. -/
theorem stepOn_cases {b : Board} {s t : State} (h : stepOn b s = .next t) :
    (s.busy = true ∧ ∃ inb, OnItsOwn s inb ∧
      ∃ a rest, s.todo = a :: rest ∧ doAction b a { s with inbox := inb, todo := rest } = .next t) ∨
    (s.busy = true ∧ ∃ inb, OnItsOwn s inb ∧ s.todo = [] ∧ t = complete .done { s with inbox := inb }) ∨
    (∃ i rest, s.inbox = i :: rest ∧ i ≠ .wait ∧ servedNow s i = true ∧
      serveInput b i { s with inbox := rest } = .next t) ∨
    (s.busy = false ∧ ∃ inb, OnItsOwn s inb ∧ t = { s with inbox := inb }) := by
  have own : ∀ inb, OnItsOwn s inb → runOwn b { s with inbox := inb } = .next t →
      (s.busy = true ∧ ∃ inb, OnItsOwn s inb ∧
        ∃ a rest, s.todo = a :: rest ∧ doAction b a { s with inbox := inb, todo := rest } = .next t) ∨
      (s.busy = true ∧ ∃ inb, OnItsOwn s inb ∧ s.todo = [] ∧ t = complete .done { s with inbox := inb }) ∨
      (s.busy = false ∧ ∃ inb, OnItsOwn s inb ∧ t = { s with inbox := inb }) := by
    intro inb ho hr
    obtain ⟨hb, a, rest, ht, hd⟩ | ⟨hb, ht, he⟩ | ⟨hb, he⟩ := runOwn_cases hr
    · exact .inl ⟨hb, inb, ho, a, rest, ht, hd⟩
    · exact .inr (.inl ⟨hb, inb, ho, ht, he⟩)
    · exact .inr (.inr ⟨hb, inb, ho, he⟩)
  unfold stepOn at h
  split at h
  · next hi => exact (own _ (.inl ⟨by simp [noInput, hi], rfl⟩) h).imp_right (·.imp_right .inr)
  · next i rest hi =>
    split at h
    · next hs =>
      by_cases hw : i = .wait
      · subst hw
        exact (own rest (.inr hi) h).imp_right (·.imp_right .inr)
      · exact .inr (.inr (.inl ⟨i, rest, hi, hw, hs, h⟩))
    · next hs =>
      have hb : s.busy = true := busy_of_not_served (by simpa using hs)
      exact (own _ (.inl ⟨by simp [noInput, hi, hs], rfl⟩) (by rw [runOwn, if_pos hb]; exact h)).imp_right (·.imp_right .inr)

theorem runOn_next {b : Board} {n : Nat} {s t : State} (h : stepOn b s = .next t) : runOn b (n + 1) s = runOn b n t := by
  simp [runOn, h]

/-- Runs compose. -/
theorem runOn_add {b : Board} {s t : State} : ∀ (n m : Nat), runOn b n s = .next t → runOn b (n + m) s = runOn b m t := by
  intro n
  induction n generalizing s with
  | zero =>
    intro m h
    obtain rfl : s = t := by simpa [runOn] using h
    simp
  | succ n ih =>
    intro m h
    rw [Nat.add_right_comm]
    cases hs : stepOn b s with
    | next u =>
      rw [runOn_next hs] at h ⊢
      exact ih m h
    | fault f => simp [runOn, hs] at h
    | refused r => simp [runOn, hs] at h

/-- One action of a running command that neither ends it nor takes an input: the run goes on from the state it leaves. -/
theorem Running.go {s t : State} {a : Action} {rest todo : List Action} (b : Board) (h : Running s (a :: rest))
    (hd : doAction b a { s with todo := rest } = .next t) (hb : t.busy = s.busy) (hi : t.inbox = s.inbox)
    (ht : t.todo = todo) : Running t todo ∧ ∀ n, runOn b (n + 1) s = runOn b n t :=
  ⟨h.of hb hi ht, fun _ => runOn_next ((h.step b).trans hd)⟩

/-- What an instruction leaves: `exec` always answers a next state. -/
def afterInstr : Instr → State → State
  | .nop, s => advance 1 (writeNoOp s)
  | .wrmem a v, s => advance 3 (writeOp 0b100#3 a v s)
  | .rdmem a _, s => advance 3 (readAndLog 0b101#3 a s)
  | .wrreg a v, s => advance 3 (writeOp 0b110#3 a v s)
  | .rdreg a _, s => advance 3 (readAndLog 0b111#3 a s)

theorem exec_eq (i : Instr) (s : State) : exec i s = .next (afterInstr i s) := by cases i <;> rfl

theorem afterInstr_pc (i : Instr) (s : State) : (afterInstr i s).pc = s.pc + instrLength i := by
  cases i <;> simp [afterInstr, instrLength, writeNoOp_eq, writeOp_eq, readAndLog_eq]

/-- The registers no instruction touches. -/
theorem afterInstr_keeps (i : Instr) (s : State) :
    (afterInstr i s).vbuf = s.vbuf ∧ (afterInstr i s).vlen = s.vlen ∧ (afterInstr i s).vselId = s.vselId ∧
    (afterInstr i s).hs = s.hs ∧ (afterInstr i s).busy = s.busy ∧ (afterInstr i s).fault = s.fault ∧
    (afterInstr i s).cfgVsel = s.cfgVsel ∧ (afterInstr i s).cfgRstMode = s.cfgRstMode ∧
    (afterInstr i s).cfgTimeout = s.cfgTimeout ∧ (afterInstr i s).xres = s.xres ∧ (afterInstr i s).pwrEn = s.pwrEn ∧
    (afterInstr i s).tmr = s.tmr ∧ (afterInstr i s).mcnt = s.mcnt ∧ (afterInstr i s).todo = s.todo ∧
    (afterInstr i s).reply = s.reply ∧ (afterInstr i s).inbox = s.inbox ∧ (afterInstr i s).edges = s.edges ∧
    (afterInstr i s).polls = s.polls := by
  cases i <;> simp [afterInstr, writeNoOp_eq, writeOp_eq, readAndLog_eq]

/-- The line events of an instruction from a state. -/
def instrEvents : Instr → State → List LineEvent
  | .nop, _ => noOpEvents
  | .wrmem a v, _ => writeEvents 0b100#3 a v
  | .rdmem a _, s => readEvents 0b101#3 a (readAnswers 0b101#3 a s)
  | .wrreg a v, _ => writeEvents 0b110#3 a v
  | .rdreg a _, s => readEvents 0b111#3 a (readAnswers 0b111#3 a s)

theorem afterInstr_trace (i : Instr) (s : State) : (afterInstr i s).trace = s.trace ++ instrEvents i s := by
  cases i <;> simp [afterInstr, instrEvents, writeNoOp_eq, writeOp_eq, readAndLog_eq]

/-- A frame leaves SCLK low, and output mode as it was or set. -/
theorem afterInstr_sclk (i : Instr) (s : State) : (afterInstr i s).sclk = false := by
  cases i <;> simp [afterInstr, writeNoOp_eq, writeOp_eq, readAndLog_eq]

theorem afterInstr_sdataOe (i : Instr) {s : State} (h : s.sdataOe = true) : (afterInstr i s).sdataOe = true := by
  cases i <;> simp [afterInstr, writeNoOp_eq, writeOp_eq, readAndLog_eq, h]

end Sys2Proof.Machine
end

