-- ==== Sys2Proof/Laws/Actions.lean ====
section
/-! SUPPORT. What each action, each input and each turn of the interpreter can do: the fields it leaves, and the states it
can answer. -/

namespace Sys2Proof.Machine

/-- The magic pattern's bits on the pins. -/
theorem sendMagic_eq (b : Board) (s : State) : sendMagic b s = { s with
    sclk := false, sdataOut := b.magic.toList.getLastD s.sdataOut, trace := s.trace ++ bitEvents b.magic.toList } := by
  have h : b.magic.toList.length = 22 := by simp
  unfold sendMagic
  rw [shiftBits_eq]
  cases hm : b.magic.toList with
  | nil => simp [hm] at h
  | cons x xs => rfl

/-- A detection that sees its level only appends its event. -/
theorem detectPulse_ok {l : Level} {s : State} {t : Nat} (h : measureResult l s = .ok t) :
    detectPulse l s = { s with edges := s.edges.tail, trace := s.trace ++ [.m l (.ok t)] } := by
  simp [detectPulse, measure_eq, h]

/-- A detection that times out raises the fault of its phase. -/
theorem detectPulse_timeout {l : Level} {s : State} (h : measureResult l s = .timeout) :
    detectPulse l s = raise (syncFault (!l)) { s with edges := s.edges.tail, trace := s.trace ++ [.m l .timeout] } := by
  simp [detectPulse, measure_eq, h]

/-- One action that neither ends the command nor takes an input, with the state it leaves named. -/
theorem Running.goes {s t0 : State} {a : Action} {rest todo' : List Action} (b : Board) (h : Running s (a :: rest))
    (hd : doAction b a { s with todo := rest } = .next t0) (hb : t0.busy = s.busy) (hi : t0.inbox = s.inbox)
    (ht : t0.todo = todo') : ∃ t, t = t0 ∧ Running t todo' ∧ ∀ n, runOn b (n + 1) s = runOn b n t := by
  obtain ⟨h1, r⟩ := h.go b hd hb hi ht
  exact ⟨t0, rfl, h1, r⟩

/-- Every instruction takes at least one byte. -/
theorem instrLength_pos (i : Instr) : 0 < instrLength i := by cases i <;> simp [instrLength]

/-- Everything a turn of the interpreter's loop can do: run an instruction that lies inside the vector, end the run at or
above its end, or raise one of the interpreter's two faults. -/
theorem runVector_cases {rest : List Action} {s t : State} (h : runVector rest s = .next t) :
    (∃ i, s.pc + instrLength i ≤ s.vlen ∧ t = afterInstr i s) ∨
    (s.vlen ≤ s.pc ∧ t = { s with todo := rest }) ∨
    (∃ c, (c = .malformedBytecode ∨ c = .illegalOpcode) ∧
      t = raise { valid := true, cause := c, phase := false, pc := s.pc, vec := s.vselId } s) := by
  unfold runVector at h
  split at h
  · next i rr he =>
    rw [exec_eq] at h
    obtain rfl := Host.Outcome.next.inj h
    refine .inl ⟨i, ?_, rfl⟩
    rw [fetchBytes_eq] at he
    have h2 := congrArg List.length (decodeOne_instr he)
    have h3 := bytesLeft_length s
    have h4 := encode_length i
    have := instrLength_pos i
    simp only [List.length_take, List.length_append] at h2
    omega
  · next he =>
    obtain rfl := Host.Outcome.next.inj h
    refine .inr (.inl ⟨?_, rfl⟩)
    rw [fetchBytes_eq] at he
    have := bytesLeft_length s
    cases hb : bytesLeft s with
    | nil => simp only [hb, List.length_nil] at this; omega
    | cons x xs =>
      rw [hb] at he
      by_cases hx : x = 0x00#8
      · subst hx; simp [decodeOne_zero] at he
      · rcases xs with _ | ⟨y, _ | ⟨z, zs⟩⟩
        · simp [decodeOne, hx] at he
        · simp [decodeOne, hx] at he
        · simp [decodeOne, hx] at he
          cases hd : decodeTriple x y z <;> simp [hd] at he
  · obtain rfl := Host.Outcome.next.inj h
    exact .inr (.inr ⟨_, .inl rfl, rfl⟩)
  · obtain rfl := Host.Outcome.next.inj h
    exact .inr (.inr ⟨_, .inr rfl, rfl⟩)

/-- The fields an action leaves: the configuration and the inbox always; the vector buffer, the reset line, the power line
and the handshake state unless the action is the one that writes it. -/
theorem doAction_keeps {b : Board} {a : Action} {s t : State} (h : doAction b a s = .next t) :
    t.cfgVsel = s.cfgVsel ∧ t.cfgRstMode = s.cfgRstMode ∧ t.cfgTimeout = s.cfgTimeout ∧ t.inbox = s.inbox ∧
    ((∀ src, a ≠ .load src) → a ≠ .loadInit3 → t.vbuf = s.vbuf ∧ t.vlen = s.vlen) ∧
    ((∀ on, a ≠ .xres on) → t.xres = s.xres) ∧ ((∀ on, a ≠ .power on) → t.pwrEn = s.pwrEn) ∧
    ((∀ h, a ≠ .setHs h) → t.hs = s.hs) := by
  cases a
  case run =>
    obtain ⟨i, _, rfl⟩ | ⟨_, rfl⟩ | ⟨c, _, rfl⟩ := runVector_cases h
    · have hk := afterInstr_keeps i { s with todo := .run :: s.todo }
      simp [hk]
    · simp
    · simp
  case load | loadInit3 =>
    simp only [doAction, startExec] at h
    split at h
    · obtain rfl := Host.Outcome.next.inj h
      simp
    · cases h
  case riseEnd r =>
    obtain rfl := Host.Outcome.next.inj h
    cases r <;> simp [riseClose_ok, riseClose_timeout, pollPulses_eq]
  case fallEnd r =>
    obtain rfl := Host.Outcome.next.inj h
    cases r <;> simp [fallClose_ok, fallClose_timeout, pollPulses_eq]
  case detect l =>
    obtain rfl := Host.Outcome.next.inj h
    unfold detectPulse
    split <;> simp [measure_eq]
  case timer =>
    obtain rfl := Host.Outcome.next.inj h
    unfold timerExpiry
    split <;> simp
  all_goals
    obtain rfl := Host.Outcome.next.inj h
    simp [pulses_eq, writeOp_eq, readAndLog_eq, riseOpen_eq, fallOpen_eq, stopPollClock, startPollClock, sendMagic,
      shiftBits_eq]

/-- The fields the acceptance or refusal of a command leaves. -/
theorem acceptCommand_keeps (b : Board) (c : HostCmd) (s : State) :
    (acceptCommand b c s).cfgVsel = s.cfgVsel ∧ (acceptCommand b c s).cfgRstMode = s.cfgRstMode ∧
    (acceptCommand b c s).cfgTimeout = s.cfgTimeout ∧ (acceptCommand b c s).vbuf = s.vbuf ∧
    (acceptCommand b c s).vlen = s.vlen ∧ (acceptCommand b c s).xres = s.xres ∧ (acceptCommand b c s).pwrEn = s.pwrEn ∧
    (acceptCommand b c s).tmr = s.tmr ∧ (acceptCommand b c s).mcnt = s.mcnt ∧ (acceptCommand b c s).sclk = s.sclk ∧
    (acceptCommand b c s).sdataOe = s.sdataOe := by
  cases c <;> simp only [acceptCommand] <;> split <;> simp

/-- The fields an input other than a reset or a `wait` leaves. -/
theorem serveInput_keeps {b : Board} {i : HostInput} {s t : State} (h : serveInput b i s = .next t)
    (hr : ∀ c, i ≠ .reset c) (hw : i ≠ .wait) :
    ((∀ v, i ≠ .setVsel v) → t.cfgVsel = s.cfgVsel) ∧ ((∀ v, i ≠ .setRstMode v) → t.cfgRstMode = s.cfgRstMode) ∧
    ((∀ v, i ≠ .setTimeout v) → t.cfgTimeout = s.cfgTimeout) ∧
    t.vbuf = s.vbuf ∧ t.vlen = s.vlen ∧ t.xres = s.xres ∧ t.pwrEn = s.pwrEn ∧ t.tmr = s.tmr ∧ t.mcnt = s.mcnt ∧
    t.sclk = s.sclk ∧ t.sdataOe = s.sdataOe := by
  cases i with
  | reset c => exact absurd rfl (hr c)
  | wait => exact absurd rfl hw
  | cmd c =>
    obtain rfl := Host.Outcome.next.inj h
    simp [acceptCommand_keeps b c s]
  | read r =>
    simp only [serveInput, serveRead] at h
    split at h
    · obtain rfl := Host.Outcome.next.inj h
      simp
    · cases h
  | setTimeout v =>
    obtain rfl := Host.Outcome.next.inj h
    unfold writeTimeout
    split <;> simp
  | setVsel v =>
    obtain rfl := Host.Outcome.next.inj h
    simp
  | setRstMode v =>
    obtain rfl := Host.Outcome.next.inj h
    simp

/-- Everything the reset input can be: the reset of a busy block whose action in progress got its first `cut` events out,
or the reset of a block that is idle or whose action answers no next state. -/
theorem resetInput_cases (b : Board) (cut : Nat) (s : State) :
    (s.busy = true ∧ ∃ t, runAction b s = .next t ∧
      resetInput b cut s = blockReset b { t with trace := cutTrace cut s t }) ∨
    ((s.busy = false ∨ ∀ t, runAction b s ≠ .next t) ∧ resetInput b cut s = blockReset b s) := by
  unfold resetInput
  split
  · next hb =>
    split
    · next t ht => exact .inl ⟨hb, t, ht, rfl⟩
    · next ht => exact .inr ⟨.inr fun u => by simp [ht], rfl⟩
    · next ht => exact .inr ⟨.inr fun u => by simp [ht], rfl⟩
  · next hb => exact .inr ⟨.inl (by simpa using hb), rfl⟩

/-- The fields the running command's next action leaves. -/
theorem runAction_keeps {b : Board} {s t : State} (h : runAction b s = .next t) : t.inbox = s.inbox ∧
    ((∀ src, s.todo.head? ≠ some (.load src)) → s.todo.head? ≠ some .loadInit3 → t.vbuf = s.vbuf) := by
  unfold runAction at h
  split at h
  · obtain rfl := Host.Outcome.next.inj h
    simp
  · next a rest he =>
    have := doAction_keeps h
    exact ⟨this.2.2.2.1, fun h1 h2 => (this.2.2.2.2.1 (fun src hc => h1 src (by simp [he, hc]))
      (fun hc => h2 (by simp [he, hc]))).1⟩

/-- What the reset input leaves: the reset values with some draw, a trace that got the first `cut` events of the action in
progress longer before the mark, and the vector buffer as it was or as the action in progress left it. -/
theorem resetInput_eq (b : Board) (cut : Nat) (s : State) : ∃ d es sa ed po vb,
    resetInput b cut s =
      resetTo b d { s with trace := s.trace ++ es, samples := sa, edges := ed, polls := po, vbuf := vb } ∧
    es.length ≤ cut ∧ (s.busy = false → es = []) ∧
    ((∀ src, s.todo.head? ≠ some (.load src)) → s.todo.head? ≠ some .loadInit3 → vb = s.vbuf) ∧
    (vb = s.vbuf ∨ ∃ t, runAction b s = .next t ∧ vb = t.vbuf) ∧
    (s.busy = true → ∀ t, runAction b s = .next t → es = (t.trace.drop s.trace.length).take cut) ∧
    ((∀ t, runAction b s ≠ .next t) → es = []) := by
  obtain ⟨hb, t, ht, he⟩ | ⟨hn, he⟩ := resetInput_cases b cut s
  · have hk := runAction_keeps ht
    refine ⟨Config.resetDraw (cutTrace cut s t), (t.trace.drop s.trace.length).take cut, t.samples, t.edges, t.polls, t.vbuf,
      ?_, by simp, by simp [hb], hk.2, .inr ⟨t, ht, rfl⟩, fun _ u hu => ?_, fun hn => absurd ht (hn t)⟩
    · rw [he]
      simp [blockReset, resetTo, cutTrace, hk.1]
    · obtain rfl := Host.Outcome.next.inj (ht.symm.trans hu)
      rfl
  · refine ⟨Config.resetDraw s.trace, [], s.samples, s.edges, s.polls, s.vbuf, ?_, by simp, by simp, by simp, .inl rfl,
      fun hb u hu => ?_, by simp⟩
    · rw [he]
      simp [blockReset]
    · exact hn.elim (fun h => by simp [h] at hb) fun h => absurd hu (h u)

/-- `PC` and `VLEN` hold no more than `PCW` bits after a block reset. -/
theorem resetTo_width (b : Board) (d : ResetDraw) (s : State) :
    (resetTo b d s).pc < 2 ^ b.pcw ∧ (resetTo b d s).vlen < 2 ^ b.pcw :=
  ⟨Nat.mod_lt _ (Nat.two_pow_pos _), Nat.mod_lt _ (Nat.two_pow_pos _)⟩

end Sys2Proof.Machine
end

