-- ==== Sys2Proof/Laws/Observe.lean ====
section
/-! SUPPORT. What a target sees of a trace: the clocked string of each kind of event list, and the events between two
states. -/

namespace Sys2Proof.Machine

/-- A trace that was extended by `es` has `es` as its new events. -/
theorem newEvents_of {s t : State} {es : List LineEvent} (h : t.trace = s.trace ++ es) : newEvents s t = es := by
  simp [newEvents, h]

/-- The clocked string is the pulses of what the target sees (R16). -/
theorem clockedFrom_eq_view (es : List LineEvent) (out oe : Bool) :
    clockedFrom out oe es = (targetViewFrom out oe es).filterMap eventSym := by
  induction es generalizing out oe with
  | nil => rfl
  | cons e es ih => cases e <;> simp [clockedFrom, targetViewFrom, eventSym, ih, List.filterMap_cons]

/-- What follows a beginning `xs` decides what the target sees of the whole only by what it shows after it. -/
theorem targetViewFrom_congr_right (xs : List LineEvent) {ys zs : List LineEvent}
    (h : ∀ out oe, targetViewFrom out oe ys = targetViewFrom out oe zs) (out oe : Bool) :
    targetViewFrom out oe (xs ++ ys) = targetViewFrom out oe (xs ++ zs) := by
  induction xs generalizing out oe with
  | nil => exact h out oe
  | cons x xs ih => cases x <;> simp [targetViewFrom, ih]

/-- A drive that another drive follows is not seen (R16). -/
theorem sameToTarget_drive_drive (xs ys : List LineEvent) (b c : Level) :
    SameToTarget (xs ++ .d b :: .d c :: ys) (xs ++ .d c :: ys) :=
  targetViewFrom_congr_right xs (ys := .d b :: .d c :: ys) (zs := .d c :: ys) (fun _ _ => rfl) _ _

/-- A drive to the level the latch has already is not seen (R16). -/
theorem targetViewFrom_drive_same (b : Level) (oe : Bool) (es : List LineEvent) :
    targetViewFrom b oe (.d b :: es) = targetViewFrom b oe es := rfl

/-- The length of a delay is not seen, nor that there is one (R16, R194). -/
theorem sameToTarget_delay (xs ys : List LineEvent) (t : Nat) : SameToTarget (xs ++ .w t :: ys) (xs ++ ys) :=
  targetViewFrom_congr_right xs (ys := .w t :: ys) (zs := ys) (fun _ _ => rfl) _ _

/-- The target gives traces that are the same to it the same answer to a sample. -/
theorem targetAnswer_same {s t : State} (h : SameToTarget s.trace t.trace) (hs : s.samples = t.samples) :
    targetAnswer s = targetAnswer t := by
  rw [targetAnswer, targetAnswer, hs, h]

/-- And the same answer to a measurement. -/
theorem edgeAnswer_same {s t : State} (h : SameToTarget s.trace t.trace) (he : s.edges = t.edges) (l : Level) :
    edgeAnswer l s = edgeAnswer l t := by
  rw [edgeAnswer, edgeAnswer, he, h]

/-- Pulses clock the symbol of the pins as they stand. -/
theorem clockedFrom_pulses (n : Nat) (out oe : Bool) (es : List LineEvent) :
    clockedFrom out oe (List.replicate n .p ++ es) = List.replicate n (pulseSym out oe) ++ clockedFrom out oe es := by
  induction n with
  | zero => rfl
  | succ n ih => simp [List.replicate_succ, clockedFrom, ih]

/-- Shifted bits clock themselves and leave the last one on the latch. -/
theorem clockedFrom_bits (bs : List Level) (out : Bool) (es : List LineEvent) :
    clockedFrom out true (bitEvents bs ++ es) = drivenSyms bs ++ clockedFrom (bs.getLastD out) true es := by
  induction bs generalizing out with
  | nil => rfl
  | cons b bs ih => simp [bitEvents, clockedFrom, ih, drivenSyms, List.getLast?_cons]

/-- Samples are taken with the driver off. -/
theorem clockedFrom_samples (bs : List Level) (out : Bool) (es : List LineEvent) :
    clockedFrom out false (sampleEvents bs ++ es) = List.replicate bs.length .z ++ clockedFrom out false es := by
  induction bs generalizing out with
  | nil => rfl
  | cons b bs ih => simp [sampleEvents, clockedFrom, ih, pulseSym, List.replicate_succ]

/-- The clocked string of a write frame, whatever follows; the latch is left high. -/
theorem clockedFrom_write (opc : Opc) (a v : Byte) (out : Bool) (es : List LineEvent) :
    clockedFrom out true (writeEvents opc a v ++ es) =
      drivenSyms (msbBits opc ++ msbBits a ++ msbBits v) ++ [.one, .one, .one] ++ clockedFrom true true es := by
  rw [writeEvents, List.append_assoc, clockedFrom_bits]
  simp [clockedFrom, pulseSym]

/-- The clocked string of a no-op frame, whatever follows; the latch is left low. -/
theorem clockedFrom_noOp (out : Bool) (es : List LineEvent) :
    clockedFrom out true (noOpEvents ++ es) = List.replicate 22 .zero ++ clockedFrom false true es := rfl

/-- The clocked string of a read frame, whatever follows; the latch is left at the last address bit. -/
theorem clockedFrom_read (opc : Opc) (a : Byte) {bits : List Level} (h : bits.length = 8) (out : Bool)
    (es : List LineEvent) :
    clockedFrom out true (readEvents opc a bits ++ es) =
      drivenSyms (msbBits opc ++ msbBits a) ++ List.replicate 11 .z ++ clockedFrom (a.getLsbD 0) true es := by
  rw [readEvents, List.append_assoc, List.append_assoc, List.append_assoc, clockedFrom_bits]
  simp [clockedFrom, clockedFrom_samples, h, pulseSym, List.replicate_succ, msbBits_byte, BitVec.getMsbD]

/-- Shifted bits make one pulse and one drive each. -/
theorem bitEvents_count (bs : List Level) : (bitEvents bs).count .p = bs.length ∧
    (bitEvents bs).count (.d true) + (bitEvents bs).count (.d false) = bs.length := by
  induction bs with
  | nil => exact ⟨rfl, rfl⟩
  | cons b bs ih => cases b <;> simp [bitEvents, ih] <;> omega

/-- Sampled bits are the samples, with one pulse each. -/
theorem sampleEvents_counts (bs : List Level) :
    samplesIn (sampleEvents bs) = bs ∧ (sampleEvents bs).count .p = bs.length := by
  induction bs with
  | nil => exact ⟨rfl, rfl⟩
  | cons b bs ih => simpa [samplesIn, sampleEvents] using ih

/-- Shifted bits hold no sample. -/
theorem samplesIn_bitEvents (bs : List Level) : samplesIn (bitEvents bs) = [] := by
  induction bs with
  | nil => rfl
  | cons b bs ih => simpa [samplesIn, bitEvents] using ih

/-- Samples of a joined list. -/
theorem samplesIn_append (xs ys : List LineEvent) : samplesIn (xs ++ ys) = samplesIn xs ++ samplesIn ys := by
  simp [samplesIn]

end Sys2Proof.Machine
end

