-- ==== Sys2Proof/Laws/Orchestrator.lean ====
section
/-! SUPPORT. What each form of a host operation does when it is run against a device. -/

namespace Sys2Proof.Machine

variable {σ : Type} (dev : σ → HostCmd → Reply × σ) (h : HostVars) (d : σ)

@[simp] theorem runHost_ret (r : HostResult) :
    runHost dev (.ret r) h d = { cmds := [], result := r, vars := h, dev := d } := rfl

@[simp] theorem runHost_ask (c : HostCmd) (k : Reply → HostProg) : runHost dev (.ask c k) h d =
    { runHost dev (k (dev d c).1) (varsAfter c h) (dev d c).2 with
      cmds := c :: (runHost dev (k (dev d c).1) (varsAfter c h) (dev d c).2).cmds } := rfl

/-- Only the active bank survives the beginning of a session (R49, R230). -/
@[simp] theorem varsAfter_acquire : varsAfter .acquire h = { curBank := h.curBank, curBlk := none } := rfl

@[simp] theorem varsAfter_exec (v : VecSrc) : varsAfter (.exec v) h = h := rfl

@[simp] theorem varsAfter_waitpoll : varsAfter .waitpoll h = h := rfl

@[simp] theorem varsAfter_wrop (sp : Space) (a v : Byte) : varsAfter (.wrop sp a v) h = h := rfl

@[simp] theorem varsAfter_rdop (sp : Space) (a : Byte) : varsAfter (.rdop sp a) h = h := rfl

@[simp] theorem runHost_setCurBank (bank : Nat) (k : HostProg) :
    runHost dev (.setCurBank bank k) h d = runHost dev k { h with curBank := some bank } d := rfl

@[simp] theorem runHost_setCurBlk (blk : Nat) (k : HostProg) :
    runHost dev (.setCurBlk blk k) h d = runHost dev k { h with curBlk := some blk } d := rfl

variable {dev} {d}

/-- A command that ends `Done` stands first, and the operation goes on. -/
theorem runHost_must_done {c : HostCmd} (hc : (dev d c).1 = .done) (k : HostProg) : runHost dev (must c k) h d =
    { runHost dev k (varsAfter c h) (dev d c).2 with cmds := c :: (runHost dev k (varsAfter c h) (dev d c).2).cmds } := by
  simp [must, hc]

/-- A command that ends otherwise ends the operation with its answer (R240). -/
theorem runHost_must_ends {c : HostCmd} (hc : (dev d c).1 ≠ .done) (k : HostProg) : runHost dev (must c k) h d =
    { cmds := [c], result := .blockEnded (dev d c).1, vars := varsAfter c h, dev := (dev d c).2 } := by
  simp [must, hc]

/-- A read that answers a byte stands first, and the operation goes on with the byte. -/
theorem runHost_readByte {a v : Byte} (hc : (dev d (.rdop .memory a)).1 = .doneByte v) (k : Byte → HostProg) :
    runHost dev (readByte a k) h d =
      { runHost dev (k v) h (dev d (.rdop .memory a)).2 with
        cmds := .rdop .memory a :: (runHost dev (k v) h (dev d (.rdop .memory a)).2).cmds } := by
  simp [readByte, hc]

/-- A `setBank` whose writes all end `Done` gives them in order, records the bank, and goes on (R243). -/
theorem runHost_setBank (hd : ∀ e sp a v, (dev e (.wrop sp a v)).1 = .done) (b : Board) (bank : Nat) (k : HostProg) (h : HostVars) (d : σ) :
    ∃ e, runHost dev (setBank b bank k) h d =
      { runHost dev k { h with curBank := some bank } e with
        cmds := (b.setBankSeq bank).map (fun w => .wrop .register w.1 w.2) ++
          (runHost dev k { h with curBank := some bank } e).cmds } := by
  unfold setBank
  generalize b.setBankSeq bank = ws
  induction ws generalizing d with
  | nil => exact ⟨d, rfl⟩
  | cons w ws ih =>
    obtain ⟨e, he⟩ := ih (dev d (.wrop .register w.1 w.2)).2
    exact ⟨e, by rw [List.foldr_cons, runHost_must_done h (hd _ _ _ _), varsAfter_wrop, he]; rfl⟩

end Sys2Proof.Machine
end

