-- ==== Sys2Proof/Tests/Slice0.lean ====
section
/-! SUPPORT. Tests of the model against the spec's own vectors (95_test_vectors.md), the well-formedness smoke tests, and
a witness for every statement that has hypotheses. The board, the target's answers and the vectors below are the spec's
test-only values (section 2.7), not the real constants. -/

namespace Sys2Proof.Tests

open Sys2Proof Sys2Proof.Machine

/-! ## A test board and small states -/

/-- The bits of a text of `0` and `1`. -/
def bitsOf (s : String) : List Level := s.toList.map fun c => c == '1'

/-- A clocked string as the spec writes it; blanks separate. -/
def wire (s : String) : List Sym :=
  (s.toList.filter fun c => c != ' ').map fun c => if c == '0' then .zero else if c == '1' then .one else .z

/-- The test-only vectors of section 2.7; the host's five are one no-op each. -/
def toyVec : VecId → List Byte
  | .init1 => [0x06, 0x50, 0x00]
  | .init2 => [0x00, 0x06, 0xF8, 0x01]
  | .init3V5 => [0x06, 0xF1, 0x00, 0x00]
  | .init3V3 => [0x06, 0xF2, 0x00, 0x00]
  | .idSetup => [0x00]
  | .bulkErase => [0x00]
  | .program => [0x00]
  | .verifySetup => [0x00]
  | .eraseBlock => [0x00]

/-- The test-only board of sections 2.7 and 2.10. -/
def toyBoard : Board where
  magic := #v[true, false, true, true, false, false, true, false, true, false, true, true, true, true, false, false, false,
    false, true, false, false, true]
  vec := toyVec
  delay := fun _ => 7
  xresActive := true
  pwrActive := false
  hasPwr := true
  tSclkHigh := 1
  tSclkLow := 1
  pcw := 8
  idAddrHi := 0x01
  idAddrLo := 0x02
  blockSelAddr := 0xFA
  setBankSeq := fun b => [(0x10, BitVec.ofNat 8 b), (0x11, 0x00)]

/-- The same without a power-enable line. -/
def bareBoard : Board := { toyBoard with hasPwr := false }

/-- A board whose Init-Vector-2 is truncated (A9), too long for its counter, and whose bank-select sequence is empty. -/
def badBoard : Board :=
  { toyBoard with vec := fun _ => [0x00, 0x06, 0xF8], pcw := 1, setBankSeq := fun _ => [] }

/-- An idle block in `Ready`. -/
def idle : State := { State.reset with hs := .ready }

/-- `s` with one input waiting. -/
def given (i : HostInput) (s : State) : State := { s with inbox := [i] }

/-- A block in `Ready` in the middle of a command with these actions left. -/
def doing (todo : List Action) (s : State) : State := { s with busy := true, todo := todo }

/-- A block at the interpreter's loop, at index `n` of a host buffer. -/
def running (bs : List Byte) (n : Nat) : State := advance n (withVector bs idle)

/-- The state after one step on a board; `reset` if there is none. -/
def stepped (b : Board) (s : State) : State :=
  match stepOn b s with
  | .next t => t
  | .fault _ => State.reset
  | .refused _ => State.reset

/-- The state after an instruction; `reset` if there is none. -/
def done (i : Instr) (s : State) : State :=
  match exec i s with
  | .next t => t
  | .fault _ => State.reset
  | .refused _ => State.reset

/-! ## Well-formedness: what each check refuses

`Instr.wf` has no ill-formed term: the widths are in the types, and every operand value is legal (R161, R96). -/

theorem test_wf_all : Instr.wf (.rdmem 0xF8 0x7E) = true := by decide

/-- R96: the canonical byte 2 of a read is `00`; E6 is legal and not canonical. -/
theorem test_canonical : Instr.canonical (.rdmem 0xF8 0x00) = true ∧ Instr.canonical (.rdmem 0xF8 0x7E) = false ∧
    Instr.canonical (.rdreg 0x10 0xFF) = false := by decide

/-- E10, E12, E15. -/
theorem test_vectorWf : vectorWf [0x00, 0x04, 0x80, 0xAB, 0x06, 0xFA, 0x03] = true ∧ vectorWf [0x04, 0x00] = false ∧
    vectorWf [0x08, 0xAA, 0xBB] = false := by decide

/-- R43: the value 0 is not legal. -/
theorem test_timeoutLegal : timeoutLegal 100000#32 = true ∧ timeoutLegal 0#32 = false := by decide

theorem test_boardVectorsFit : boardVectorsFit toyBoard = true ∧ boardVectorsFit badBoard = false := by decide

theorem test_boardVectorsDecode : boardVectorsDecode toyBoard = true ∧ boardVectorsDecode badBoard = false := by decide

/-- R243: two writes, one of which carries the bank; no byte carries bank 256. -/
theorem test_setBankSeqWf : setBankSeqWf toyBoard 1 = true ∧ setBankSeqWf toyBoard 255 = true ∧
    setBankSeqWf toyBoard 256 = false ∧ setBankSeqWf badBoard 1 = false := by decide

/-! ## Decoding: words written out from the encoding tables R91 and R92 -/

/-- E2 and E3: `00000000`. -/
theorem test_decode_nop : decodeOne [0b00000000, 0b00000000] = .instr .nop [0b00000000] := by decide

/-- E4: `00000100 10000000 10101011`. -/
theorem test_decode_wrmem : decodeOne [0b00000100, 0b10000000, 0b10101011] = .instr (.wrmem 0x80 0xAB) [] := by decide

/-- E6: `00000101 11111000 01111110`: byte 2 of a read is kept. -/
theorem test_decode_rdmem : decodeOne [0b00000101, 0b11111000, 0b01111110] = .instr (.rdmem 0xF8 0x7E) [] := by decide

/-- E7: `00000110 11111010 00000011`. -/
theorem test_decode_wrreg : decodeOne [0b00000110, 0b11111010, 0b00000011] = .instr (.wrreg 0xFA 0x03) [] := by decide

/-- E8: `00000111 00010000 11111111`. -/
theorem test_decode_rdreg : decodeOne [0b00000111, 0b00010000, 0b11111111] = .instr (.rdreg 0x10 0xFF) [] := by decide

/-- E1, E9, E10. -/
theorem test_decode_vectors : decodeVector [] = .ok [] ∧ decodeVector [0x04, 0x00, 0x00] = .ok [.wrmem 0x00 0x00] ∧
    decodeVector [0x00, 0x04, 0x80, 0xAB, 0x06, 0xFA, 0x03] = .ok [.nop, .wrmem 0x80 0xAB, .wrreg 0xFA 0x03] := by decide

/-- E11 to E14: truncation, tested before legality. -/
theorem test_decode_truncated : decodeVector [0x05] = .malformed 0 ∧ decodeVector [0x04, 0x00] = .malformed 0 ∧
    decodeVector [0x04, 0x80, 0xAB, 0x00, 0x06, 0xFA] = .malformed 4 ∧ decodeVector [0x09] = .malformed 0 := by decide

/-- E15 to E19: illegal first bytes; the whole byte is matched. -/
theorem test_decode_illegal : decodeVector [0x08, 0xAA, 0xBB] = .illegal 0 0x08 ∧
    decodeVector [0x03, 0xAA, 0xBB] = .illegal 0 0x03 ∧ decodeVector [0xFF, 0x00, 0x00] = .illegal 0 0xFF ∧
    decodeVector [0x0C, 0x80, 0xAB] = .illegal 0 0x0C ∧ decodeVector [0x00, 0x09, 0x01, 0x02] = .illegal 1 0x09 := by
  decide

/-- S1 on E10 and on the non-canonical E6. -/
theorem test_round_trip : encodeVector [.nop, .wrmem 0x80 0xAB, .wrreg 0xFA 0x03] = [0x00, 0x04, 0x80, 0xAB, 0x06, 0xFA, 0x03] ∧
    encodeVector [.rdmem 0xF8 0x7E] = [0x05, 0xF8, 0x7E] := by decide

/-! ## The five instructions -/

/-- V20, I2. -/
theorem test_nop : clockedBetween idle (done .nop idle) = wire "0000000000000000000000" ∧ (done .nop idle).pc = 1 := by
  decide

/-- V1. -/
theorem test_wrmem : clockedBetween idle (done (.wrmem 0x80 0xAB) idle) = wire "100 10000000 10101011 111" ∧
    (done (.wrmem 0x80 0xAB) idle).pc = 3 := by decide

/-- V6: the highest value bit is clear. -/
theorem test_wrmem_msb : clockedBetween idle (done (.wrmem 0xFA 0x7F) idle) = wire "100 11111010 01111111 111" := by decide

/-- V4: most significant bit first in both fields. -/
theorem test_wrreg : clockedBetween idle (done (.wrreg 0xAA 0x55) idle) = wire "110 10101010 01010101 111" ∧
    (done (.wrreg 0xAA 0x55) idle).sdataOut = true := by decide

/-- V2: all-zero operands still differ from a no-op. -/
theorem test_wrreg_zero : clockedBetween idle (done (.wrreg 0x00 0x00) idle) = wire "110 00000000 00000000 111" := by decide

/-- V10, I6: the line events of the sampling, and the record. -/
theorem test_rdmem :
    (done (.rdmem 0xF8 0x00) { idle with samples := bitsOf "10100101" }).rdlog = [⟨0b101, 0xF8, 0xA5⟩] ∧
    (done (.rdmem 0xF8 0x00) { idle with samples := bitsOf "10100101" }).trace.drop 22 =
      [.dir false, .p, .p, .s true, .p, .s false, .p, .s true, .p, .s false, .p, .s false, .p, .s true, .p, .s false, .p,
        .s true, .p, .p, .dir true] := by decide

/-- I7: byte 2 is ignored and stays in the buffer. -/
theorem test_rdmem_byte2 :
    (stepped toyBoard { running [0x05, 0xF8, 0x7E] 0 with samples := bitsOf "10100101" }).rdata = 0xA5 ∧
    (stepped toyBoard { running [0x05, 0xF8, 0x7E] 0 with samples := bitsOf "10100101" }).vbuf.read 2 = 0x7E := by decide

/-- V14: the first sample is bit 7. -/
theorem test_rdreg : (done (.rdreg 0x00 0x00) { idle with samples := bitsOf "10000000" }).rdata = 0x80 ∧
    clockedBetween idle (done (.rdreg 0x00 0x00) { idle with samples := bitsOf "10000000" }) =
      wire "111 00000000 ZZZZZZZZZZZ" := by decide

/-- V15: the last sample is bit 0; the latch keeps `a[0]`. -/
theorem test_rdreg_lsb : (done (.rdreg 0xFF 0x00) { idle with samples := bitsOf "00000001" }).rdata = 0x01 ∧
    (done (.rdreg 0xFF 0x00) { idle with samples := bitsOf "00000001" }).sdataOut = true := by decide

/-! ## The interpreter -/

/-- I8: one byte of three. -/
theorem test_exec_truncated : (stepped toyBoard (running [0x05] 0)).fault = malformedFault 0 .hostbuf ∧
    (stepped toyBoard (running [0x05] 0)).trace = [] := by decide

/-- P3: the truncated triple stands at index 4. -/
theorem test_exec_truncated_late :
    (stepped toyBoard (running [0x04, 0x80, 0xAB, 0x00, 0x06, 0xFA] 4)).fault = malformedFault 4 .hostbuf := by decide

/-- P4: an illegal first byte at index 1. -/
theorem test_exec_illegal : (stepped toyBoard (running [0x00, 0x09, 0x01, 0x02] 1)).fault = illegalFault 1 .hostbuf ∧
    (stepped toyBoard (running [0x00, 0x09, 0x01, 0x02] 1)).trace = [] := by decide

/-- I1: an empty buffer completes at once. -/
theorem test_exec_empty : (stepped toyBoard (running [] 0)).todo = [.finish] ∧
    (stepped toyBoard (running [] 0)).trace = [] := by decide

/-- A placed word is what the step runs: the `WRREG` of E7, numbered as the opcode table numbers it. -/
theorem test_withFetchWord : decodeTableWord 24 0x03FA06 = some (.wrreg 0xFA 0x03) ∧
    step (State.reset.withFetchWord 24 0x03FA06) = exec (.wrreg 0xFA 0x03) (State.reset.withFetchWord 24 0x03FA06) :=
  ⟨by decide, rfl⟩

/-- R16: a pulse shows the pins, and samples, measurements and line writes stand between the pulses as they were made. -/
theorem test_targetView : targetView [.d true, .p, .dir false, .p, .s true, .p, .w 3, .x true, .m true .timeout] =
    [.p .one, .p .z, .s true, .p .z, .x true, .m true .timeout] := by decide

/-- R16: repeated drives are not seen, and a sample before a pulse is told from one after it. -/
theorem test_sameToTarget : SameToTarget [.d true, .d false, .d false, .p] [.p] ∧
    ¬ SameToTarget [.s true, .p] [.p, .s true] := by
  unfold SameToTarget
  decide

/-! ## Wait-and-poll, handshake and host commands -/

/-- W1, W5, W6: a level at 350 of 100000, at exactly 100000, at 99999. -/
theorem test_window : windowResult 100000 ⟨some 350, false⟩ = .ok 350 ∧ windowResult 100000 ⟨some 100000, true⟩ = .ok 100000 ∧
    windowResult 100000 ⟨some 100000, false⟩ = .timeout ∧ windowResult 100000 ⟨some 99999, false⟩ = .ok 99999 := by decide

/-- R182, W1 to W4: the bounds on the poll pulses. -/
theorem test_pollBound : pollBound (350 + 60) = 21 ∧ pollBound 100000 = 5000 ∧ pollBound 100010 = 5001 ∧
    pollBound 30 = 2 := by decide

/-- W2: the rise window times out; the line stays an input and nothing is driven. -/
theorem test_rise_timeout :
    (stepped toyBoard (doing [.riseEnd .timeout] { idle with sdataOe := false, polls := [0] })).fault = syncFault false ∧
    (stepped toyBoard (doing [.riseEnd .timeout] { idle with sdataOe := false, polls := [0] })).sdataOe = false := by decide

/-- A7: no power-up pulse; `HS` stays at `Resetting` and no pulse is made. -/
theorem test_powerup_timeout :
    (stepped toyBoard (doing [.detect true, .finish] { State.reset with hs := .resetting, edges := [⟨none, false⟩] })).fault =
      syncFault false ∧
    (stepped toyBoard (doing [.detect true, .finish] { State.reset with hs := .resetting, edges := [⟨none, false⟩] })).trace =
      [.m true .timeout] := by decide

/-- P5: the magic pattern on the wire. -/
theorem test_magic : clockedBetween idle (stepped toyBoard (doing [.magic, .finish] idle)) = wire "1011001010111100001001" := by
  decide

/-- A2: with `VSEL = 1` the 3.3 V vector is loaded. -/
theorem test_init3 : (stepped toyBoard (doing [.loadInit3, .run] { idle with cfgVsel := true })).vselId = .vec .init3V3 := by
  decide

/-- A8: the power path without its line is refused. -/
theorem test_acquire_refused :
    stepped bareBoard (given (.cmd .acquire) { idle with cfgRstMode := true }) =
      { idle with cfgRstMode := true, reply := some .refused } := by decide

/-- G9: `ACQUIRE` clears a latched fault. -/
theorem test_acquire_clears : (stepped toyBoard (given (.cmd .acquire) { idle with fault := syncFault true })).fault =
    FaultReg.clear := by decide

/-- G1 to G4: after reset the other four are refused. -/
theorem test_not_ready : (stepped toyBoard (given (.cmd (.exec (.id .program))) State.reset)).reply = some .refused ∧
    (stepped toyBoard (given (.cmd (.wrop .memory 0x80 0x12)) State.reset)).reply = some .refused ∧
    (stepped toyBoard (given (.cmd (.rdop .memory 0xF8)) State.reset)).reply = some .refused ∧
    (stepped toyBoard (given (.cmd .waitpoll) State.reset)).reply = some .refused := by decide

/-- G5: `RDATA` has no value before the first read. -/
theorem test_rdata_undefined : stepOn toyBoard (given (.read .rdata) State.reset) = .fault .rdataUndefined := rfl

/-- G7: the read of `RDOP` and its record. -/
theorem test_rdop :
    (stepped toyBoard (doing [.rdop .register 0x10, .finishRead] { idle with samples := bitsOf "11000011" })).rdlog =
      [⟨0b111, 0x10, 0xC3⟩] := by decide

/-- R322: a reset after five events of a frame. -/
theorem test_reset_cut : (stepped toyBoard { doing [.wrop .memory 0x80 0xAB, .finish] idle with inbox := [.reset 5] }).trace =
    [.d true, .p, .d false, .p, .d false, .rst] := by decide

/-- R322: the outside waits two steps, then a reset cuts the second frame of a running `EXEC` after three events. -/
theorem test_reset_in_exec :
    (match runOn toyBoard 4 { idle with inbox := [.cmd (.exec (.bytes [0x00, 0x00])), .wait, .wait, .reset 3] } with
      | .next t => t.trace.drop 23
      | .fault _ => []
      | .refused _ => []) = [.d false, .p, .p, .rst] := by decide

/-- R26: the electrical levels of the reset and power lines on this board. -/
theorem test_levels : xresLevel toyBoard { idle with xres := true } = true ∧ pwrLevel toyBoard { idle with pwrEn := true } = some false ∧
    pwrLevel bareBoard idle = none := by decide

/-- A vector that `PCW` bits cannot count is refused by name. -/
theorem test_too_long : stepOn badBoard (doing [.load (.bytes [0x00, 0x00]), .run] idle) = .refused .vectorTooLong := rfl

/-! ## The offline compiler and the host's operations -/

/-- K1, K2, K3. -/
theorem test_compile_writes : compileText "1001000000010101011111".toList = .ok [.wrmem 0x80 0xAB] ∧
    compileText "11011111 01000000 011111".toList = .ok [.wrreg 0xFA 0x03] ∧
    compileText "0000000000000000000000".toList = .ok [.nop] := by decide

/-- K4, K5: the unread positions hold anything. -/
theorem test_compile_reads : compileText "10111111000ZDDDDDDDDZ1".toList = .ok [.rdmem 0xF8 0x00] ∧
    compileText "11100010000...........".toList = .ok [.rdreg 0x10 0x00] := by decide

/-- K6, K7. -/
theorem test_compile_bad : compileText "0101000000010101011111".toList = .unrecognizedOpcode ∧
    compileText "0010000000000000000000".toList = .unrecognizedOpcode ∧ compileText "100".toList = .badLength := by decide

/-- R277. -/
theorem test_mnemonic : mnemonicText (.wrmem 0x80 0xAB) = "WRMEM 80, AB".toList ∧ mnemonicText (.rdreg 0x10 0xFF) = "RDREG 10".toList := by
  decide

/-- A device that answers every command: reads give the byte, everything else `Done`. -/
def echo (v : Byte) : Unit → HostCmd → Reply × Unit
  | u, .acquire => (.done, u)
  | u, .exec _ => (.done, u)
  | u, .waitpoll => (.done, u)
  | u, .wrop _ _ _ => (.done, u)
  | u, .rdop _ _ => (.doneByte v, u)

/-- The host's variables before anything was recorded. -/
def noVars : HostVars := { curBank := none, curBlk := none }

/-- H1: four commands, high byte first. -/
theorem test_siliconId : (runHost (echo 0x12) (readSiliconId toyBoard) noVars ()).cmds =
      [.exec (.id .idSetup), .waitpoll, .rdop .memory 0x01, .rdop .memory 0x02] ∧
    (runHost (echo 0x12) (readSiliconId toyBoard) noVars ()).result = .siliconId 0x12 0x12 := ⟨rfl, rfl⟩

/-- H6 and H7: a length of 8191 fails with no command, a length of 0 verifies with none. -/
theorem test_image_sizes : (runHost (echo 0x00) (verifyImage toyBoard []) noVars ()).cmds = [] ∧
    (runHost (echo 0x00) (verifyImage toyBoard []) noVars ()).result = .ok ∧
    (runHost (echo 0x00) (wholeBanks (List.replicate 3 0x00) (.ret .ok)) noVars ()).cmds = [] ∧
    (runHost (echo 0x00) (wholeBanks (List.replicate 3 0x00) (.ret .ok)) noVars ()).result = .invalidImageSize :=
  ⟨rfl, rfl, rfl, rfl⟩

/-- R243: `setBank` writes its sequence and records the bank; a write that is refused leaves `cur_bank` as it was. -/
theorem test_setBank : (runHost (echo 0x00) (setBank toyBoard 3 (.ret .ok)) noVars ()).cmds =
      [.wrop .register 0x10 0x03, .wrop .register 0x11 0x00] ∧
    (runHost (echo 0x00) (setBank toyBoard 3 (.ret .ok)) noVars ()).vars.curBank = some 3 ∧
    (runHost (fun (u : Unit) _ => (Reply.refused, u)) (setBank toyBoard 3 (.ret .ok)) noVars ()).vars.curBank = none :=
  ⟨rfl, rfl, rfl⟩

/-- R230: a session begins with the active bank of the one before and with no block index. -/
theorem test_session : (runHost (echo 0x00) (beginSession (.ret .ok)) { curBank := some 3, curBlk := some 7 } ()).vars =
    { curBank := some 3, curBlk := none } := rfl

/-! ## Witnesses: for every statement with hypotheses, a state and operands that meet them

Clauses that need output mode are met by the reset state (`witness_output`). -/

/-- The serializer's statements and `NopResult` to `RdregResult`, `FrameClockedString`, `VectorPulseLaw`. -/
theorem witness_output : State.reset.sdataOe = true ∧ idle.sdataOe = true := by decide

/-- A busy block runs its actions when no input waits. -/
theorem running_doing (todo : List Action) (s : State) (h : s.inbox = []) : Running (doing todo s) todo :=
  ⟨rfl, by simp [noInput, doing, h], rfl⟩

/-- The reset values of `PC`, `VLEN` and `FAULT.PC` fit any width. -/
theorem width_of_zero (b : Board) {s : State} (h : s.pc = 0 ∧ s.vlen = 0 ∧ s.fault.pc = 0 := by exact ⟨rfl, rfl, rfl⟩) :
    PcwOk b s :=
  ⟨h.1 ▸ Nat.two_pow_pos _, h.2.1 ▸ Nat.two_pow_pos _, h.2.2 ▸ Nat.two_pow_pos _⟩

/-- An idle block takes the input it is given. -/
theorem offered_given (i : HostInput) (s : State) (h : s.busy = false) : Offered (given i s) i [] := ⟨h, rfl⟩

/-- `TruncatedRaises` in `WrmemResult` and `TruncatedTriple`: two bytes left, and one byte left. -/
theorem witness_truncated_wrmem : Running (running [0x04, 0x00] 0) [.run, .finish] ∧
    (running [0x04, 0x00] 0).vbuf.read (running [0x04, 0x00] 0).pc = 0x04 ∧
    (running [0x04, 0x00] 0).pc < (running [0x04, 0x00] 0).vlen ∧
    (running [0x04, 0x00] 0).vlen < (running [0x04, 0x00] 0).pc + 3 := ⟨⟨rfl, rfl, rfl⟩, by decide⟩

/-- The same with one byte left, after a whole command. -/
theorem witness_truncated_one : Running (running [0x00, 0x09] 1) [.run, .finish] ∧
    (running [0x00, 0x09] 1).vbuf.read (running [0x00, 0x09] 1).pc = 0x09 ∧
    (running [0x00, 0x09] 1).pc < (running [0x00, 0x09] 1).vlen ∧
    (running [0x00, 0x09] 1).vlen < (running [0x00, 0x09] 1).pc + 3 := ⟨⟨rfl, rfl, rfl⟩, by decide⟩

/-- `RdmemResult`, `WrregResult`, `RdregResult`: truncated triples of the other three. -/
theorem witness_truncated_others :
    (Running (running [0x05] 0) [.run, .finish] ∧ (running [0x05] 0).vbuf.read 0 = 0x05 ∧ (running [0x05] 0).vlen = 1) ∧
    (Running (running [0x06, 0xFA] 0) [.run, .finish] ∧ (running [0x06, 0xFA] 0).vbuf.read 0 = 0x06 ∧
      (running [0x06, 0xFA] 0).vlen = 2) ∧
    (Running (running [0x07] 0) [.run, .finish] ∧ (running [0x07] 0).vbuf.read 0 = 0x07 ∧ (running [0x07] 0).vlen = 1) :=
  ⟨⟨⟨rfl, rfl, rfl⟩, by decide⟩, ⟨⟨rfl, rfl, rfl⟩, by decide⟩, ⟨⟨rfl, rfl, rfl⟩, by decide⟩⟩

/-- `TruncatedTriple`: a tail of no byte and of one. -/
theorem witness_TruncatedTriple : (0x09 : Byte) ≠ 0x00#8 ∧ ([] : List Byte).length < 2 ∧ [(0x00 : Byte)].length < 2 := by
  decide

/-- `BytecodeFrame`: a command that reads nothing and one that reads. -/
theorem witness_BytecodeFrame : readCount [.nop] = 0 ∧ readCount [.wrreg 0xFA 0x03] = 0 ∧ readCount [.rdmem 0xF8 0x00] = 1 := by
  decide

/-- `DecodeOfEncodeVector`. -/
theorem witness_DecodeOfEncodeVector : ∀ i ∈ [Instr.nop, .rdmem 0xF8 0x7E, .wrreg 0xFF 0xFF], i.wf = true := by decide

/-- `EncodeOfDecodeVector`, `VectorLengthInvariant`. -/
theorem witness_decodes : decodeVector [0x00, 0x05, 0xF8, 0x7E] = .ok [.nop, .rdmem 0xF8 0x7E] := by decide

/-- `IllegalFirstByte`, at the edges of both ranges: `01`, `03`, `08`, `FF`. -/
theorem witness_IllegalFirstByte : ∀ b0 ∈ [(0x01 : Byte), 0x03, 0x08, 0xFF],
    b0 ≠ 0x00#8 ∧ b0 ≠ 0x04#8 ∧ b0 ≠ 0x05#8 ∧ b0 ≠ 0x06#8 ∧ b0 ≠ 0x07#8 ∧
    (running [b0, 0xAA, 0xBB] 0).vbuf.read 0 = b0 ∧ (running [b0, 0xAA, 0xBB] 0).pc + 3 ≤ (running [b0, 0xAA, 0xBB] 0).vlen := by
  decide

/-- The same states run. -/
theorem witness_IllegalFirstByte_running (b0 : Byte) : Running (running [b0, 0xAA, 0xBB] 0) (.run :: [.finish]) := ⟨rfl, rfl, rfl⟩

/-- `StepRunsDecodedInstruction`. -/
theorem witness_StepRunsDecodedInstruction : Running (running [0x00, 0x04, 0x80, 0xAB] 1) [.run, .finish] ∧
    decodeOne (bytesLeft (running [0x00, 0x04, 0x80, 0xAB] 1)) = .instr (.wrmem 0x80 0xAB) [] ∧
    ((given .wait (running [0x00] 0)).busy = true ∧ (given .wait (running [0x00] 0)).todo = .run :: [.finish] ∧
      (given .wait (running [0x00] 0)).inbox = [.wait] ∧
      decodeOne (bytesLeft (given .wait (running [0x00] 0))) = .instr .nop []) :=
  ⟨⟨rfl, rfl, rfl⟩, by decide, rfl, rfl, rfl, by decide⟩

/-- `RunCompletesAtEnd`: after the last command, and in an empty vector. -/
theorem witness_RunCompletesAtEnd :
    (Running (running [0x00] 1) [.run, .finish] ∧ (running [0x00] 1).pc = (running [0x00] 1).vlen) ∧
    (Running (running [] 0) [.run, .finish] ∧ (running [] 0).pc = (running [] 0).vlen) :=
  ⟨⟨⟨rfl, rfl, rfl⟩, rfl⟩, ⟨⟨rfl, rfl, rfl⟩, rfl⟩⟩

/-- `ExecStartLoadsVector`: an embedded vector and a host's. -/
theorem witness_ExecStartLoadsVector :
    (Running (doing [.load (.id .init2), .run] idle) (.load (.id .init2) :: [.run]) ∧
      (srcBytes toyBoard (.id .init2)).length < 2 ^ toyBoard.pcw) ∧
    (Running (doing [.load (.bytes []), .run] idle) (.load (.bytes []) :: [.run]) ∧
      (srcBytes toyBoard (.bytes [])).length < 2 ^ toyBoard.pcw) ∧
    Inv toyBoard (doing [.load (.bytes []), .run, .finish] idle) :=
  ⟨⟨running_doing _ _ rfl, by decide⟩, ⟨running_doing _ _ rfl, by decide⟩,
    ⟨rfl, width_of_zero _, rfl, rfl, rfl, fun _ => ⟨rfl, rfl, rfl, fun h => Bool.noConfusion h⟩, fun h => Bool.noConfusion h⟩⟩

/-- `ExecAgreesWithDecode`: a buffer for each outcome of `decode`. -/
theorem witness_ExecAgreesWithDecode :
    (∀ bs : List Byte, Running (withVector bs idle) (.run :: [.finish]) ∧ (withVector bs idle).vbuf = Memory.ofBytes bs ∧
      (withVector bs idle).vlen = bs.length ∧ (withVector bs idle).pc = 0) ∧
    decodeVector [0x00] = .ok [.nop] ∧ decodeVector [0x00, 0x04] = .malformed 1 ∧
    decodeVector [0x00, 0x09, 0x01, 0x02] = .illegal 1 0x09 :=
  ⟨fun _ => ⟨⟨rfl, rfl, rfl⟩, rfl, rfl, rfl⟩, by decide⟩

/-- `VectorBufferReadOnly`: a step of the interpreter. -/
theorem witness_VectorBufferReadOnly :
    stepOn toyBoard (running [0x00] 0) = .next (stepped toyBoard (running [0x00] 0)) ∧
    (∀ src, (running [0x00] 0).todo.head? ≠ some (.load src)) ∧ (running [0x00] 0).todo.head? ≠ some .loadInit3 :=
  ⟨rfl, by simp [running, withVector, advance], by decide⟩

/-- An idle block with a latched fault meets the invariant. -/
theorem faulted_inv (i : HostInput) : Inv toyBoard (given i { idle with fault := syncFault true }) :=
  ⟨rfl, width_of_zero _, rfl, rfl, rfl, fun h => (Bool.noConfusion h : _), fun _ => ⟨rfl, rfl, rfl, rfl, fun h => Bool.noConfusion h⟩⟩

/-- `FaultNeverOverwritten`: a step that leaves the fault and one that clears it. -/
theorem witness_FaultNeverOverwritten : ∀ i ∈ [HostInput.cmd .waitpoll, .cmd .acquire],
    Inv toyBoard (given i { idle with fault := syncFault true }) ∧
    (given i { idle with fault := syncFault true }).fault.valid = true ∧
    ∃ t, stepOn toyBoard (given i { idle with fault := syncFault true }) = .next t := by
  intro i hi
  refine ⟨faulted_inv i, rfl, ?_⟩
  simp only [List.mem_cons, List.not_mem_nil, or_false] at hi
  rcases hi with rfl | rfl <;> exact ⟨_, rfl⟩

/-- `FaultGate`, both clauses, on both kinds of board. -/
theorem witness_FaultGate : Offered (given (.cmd .waitpoll) { idle with fault := syncFault true }) (.cmd .waitpoll) [] ∧
    Offered (given (.cmd .acquire) { idle with fault := syncFault true }) (.cmd .acquire) [] ∧
    HostCmd.waitpoll ≠ .acquire ∧ idle.cfgRstMode = false ∧ toyBoard.hasPwr = true ∧ (syncFault true).valid = true :=
  ⟨⟨rfl, rfl⟩, ⟨rfl, rfl⟩, by decide⟩

/-- `WindowResultRule`: just inside the window, just after it, and a window that times out. -/
theorem witness_WindowResultRule : 99999 < 100000 ∧ 100000 < 100001 ∧ 0 < 1 ∧
    windowResult 100000 ⟨some 100000, false⟩ = .timeout := by decide

/-- A block about to wait for the target, whose next windows end as `es` says. -/
def waiting (es : List EdgeAnswer) : State := doing (waitAndPoll ++ [.finish]) { idle with edges := es }

/-- `RiseWindowOpensFirst`. -/
theorem witness_RiseWindowOpensFirst : Running (waiting []) (waitAndPoll ++ [.finish]) := running_doing _ _ rfl

/-- `WaitPollSuccess`: W1, and W4 with the line already high. -/
theorem witness_WaitPollSuccess :
    (Running (waiting [⟨some 350, false⟩, ⟨some 60, false⟩]) (waitAndPoll ++ [.finish]) ∧
      windowResult (timeoutUs (waiting [⟨some 350, false⟩, ⟨some 60, false⟩])) ⟨some 350, false⟩ = .ok 350 ∧
      windowResult (timeoutUs (waiting [⟨some 350, false⟩, ⟨some 60, false⟩])) ⟨some 60, false⟩ = .ok 60) ∧
    (Running (waiting [⟨some 0, false⟩, ⟨some 30, false⟩]) (waitAndPoll ++ [.finish]) ∧
      windowResult (timeoutUs (waiting [⟨some 0, false⟩, ⟨some 30, false⟩])) ⟨some 0, false⟩ = .ok 0 ∧
      windowResult (timeoutUs (waiting [⟨some 0, false⟩, ⟨some 30, false⟩])) ⟨some 30, false⟩ = .ok 30) :=
  ⟨⟨running_doing _ _ rfl, by decide⟩, ⟨running_doing _ _ rfl, by decide⟩⟩

/-- `WaitPollSuccess`: `WAITPOLL` given to an idle block in `Ready`, on the oracle of W1. -/
theorem witness_WaitPollSuccess_command :
    Offered (given (.cmd .waitpoll) { idle with edges := [⟨some 350, false⟩, ⟨some 60, false⟩] }) (.cmd .waitpoll) [] ∧
    (given (.cmd .waitpoll) { idle with edges := [⟨some 350, false⟩, ⟨some 60, false⟩] }).hs = .ready ∧
    (given (.cmd .waitpoll) { idle with edges := [⟨some 350, false⟩, ⟨some 60, false⟩] }).fault.valid = false ∧
    windowResult (timeoutUs idle) ⟨some 350, false⟩ = .ok 350 ∧ windowResult (timeoutUs idle) ⟨some 60, false⟩ = .ok 60 :=
  ⟨⟨rfl, rfl⟩, by decide⟩

/-- `WaitPollRiseTimeout`: W2. -/
theorem witness_WaitPollRiseTimeout : Running (waiting [⟨none, false⟩]) (waitAndPoll ++ [.finish]) ∧
    (waiting [⟨none, false⟩]).edges = ⟨none, false⟩ :: [] ∧
    windowResult (timeoutUs (waiting [⟨none, false⟩])) ⟨none, false⟩ = .timeout := ⟨running_doing _ _ rfl, rfl, by decide⟩

/-- `WaitPollFallTimeout`: W3. -/
theorem witness_WaitPollFallTimeout : Running (waiting [⟨some 10, false⟩, ⟨none, false⟩]) (waitAndPoll ++ [.finish]) ∧
    windowResult (timeoutUs (waiting [⟨some 10, false⟩, ⟨none, false⟩])) ⟨some 10, false⟩ = .ok 10 ∧
    windowResult (timeoutUs (waiting [⟨some 10, false⟩, ⟨none, false⟩])) ⟨none, false⟩ = .timeout :=
  ⟨running_doing _ _ rfl, by decide⟩

/-- `AcquireAccepted`: the hard path without the power line, the power path with it. -/
theorem witness_AcquireAccepted : Offered (given (.cmd .acquire) State.reset) (.cmd .acquire) [] ∧
    State.reset.cfgRstMode = false ∧ bareBoard.hasPwr = false ∧
    Offered (given (.cmd .acquire) { State.reset with cfgRstMode := true }) (.cmd .acquire) [] ∧ toyBoard.hasPwr = true :=
  ⟨⟨rfl, rfl⟩, rfl, rfl, ⟨rfl, rfl⟩, rfl⟩

/-- `PowerPathNeedsLine`. -/
theorem witness_PowerPathNeedsLine :
    Offered (given (.cmd .acquire) { idle with cfgRstMode := true }) (.cmd .acquire) [] ∧
    ({ idle with cfgRstMode := true } : State).cfgRstMode = true ∧ bareBoard.hasPwr = false := ⟨⟨rfl, rfl⟩, rfl, rfl⟩

/-- `HardResetPath`. -/
theorem witness_HardResetPath :
    Running (doing (hardResetProgram ++ commonTail) State.reset) (hardResetProgram ++ commonTail) := running_doing _ _ rfl

/-- A block at the start of the power path, whose next windows end as `es` says. -/
def powering (es : List EdgeAnswer) : State := doing (powerCycleProgram ++ commonTail) { State.reset with edges := es }

/-- `PowerCyclePath`: A6. -/
theorem witness_PowerCyclePath : Running (powering [⟨some 5, true⟩, ⟨some 6, true⟩]) (powerCycleProgram ++ commonTail) ∧
    windowResult (timeoutUs (powering [⟨some 5, true⟩, ⟨some 6, true⟩])) ⟨some 5, true⟩ = .ok 5 ∧
    windowResult (timeoutUs (powering [⟨some 5, true⟩, ⟨some 6, true⟩])) ⟨some 6, true⟩ = .ok 6 :=
  ⟨running_doing _ _ rfl, by decide⟩

/-- `PowerUpDetectionTimeout`: A7, and a pulse that does not end. -/
theorem witness_PowerUpDetectionTimeout :
    (Running (powering [⟨none, true⟩]) (powerCycleProgram ++ commonTail) ∧
      windowResult (timeoutUs (powering [⟨none, true⟩])) ⟨none, true⟩ = .timeout) ∧
    (Running (powering [⟨some 5, true⟩, ⟨none, true⟩]) (powerCycleProgram ++ commonTail) ∧
      windowResult (timeoutUs (powering [⟨some 5, true⟩, ⟨none, true⟩])) ⟨some 5, true⟩ = .ok 5 ∧
      windowResult (timeoutUs (powering [⟨some 5, true⟩, ⟨none, true⟩])) ⟨none, true⟩ = .timeout) :=
  ⟨⟨running_doing _ _ rfl, by decide⟩, ⟨running_doing _ _ rfl, by decide⟩⟩

/-- `InitVector3Selection`, both voltages. -/
theorem witness_InitVector3Selection : ∀ v : Bool,
    Running (doing [.loadInit3, .run] { idle with cfgVsel := v }) (.loadInit3 :: [.run]) ∧
    (toyBoard.vec (if v then .init3V3 else .init3V5)).length < 2 ^ toyBoard.pcw := by
  intro v
  exact ⟨running_doing _ _ rfl, by cases v <;> decide⟩

/-- `AcquireReachesReady`: P5. -/
theorem witness_AcquireReachesReady :
    Offered { State.reset with inbox := [.cmd .acquire], edges := [⟨some 35, true⟩, ⟨some 5, true⟩, ⟨some 0, true⟩, ⟨some 9, true⟩] }
      (.cmd .acquire) [] ∧
    State.reset.cfgRstMode = false ∧
    (toyBoard.vec .init1).length < 2 ^ toyBoard.pcw ∧ (toyBoard.vec .init2).length < 2 ^ toyBoard.pcw ∧
    (toyBoard.vec (if State.reset.cfgVsel then .init3V3 else .init3V5)).length < 2 ^ toyBoard.pcw ∧
    decodeVector (toyBoard.vec .init1) = .ok [.wrreg 0x50 0x00] ∧
    decodeVector (toyBoard.vec .init2) = .ok [.nop, .wrreg 0xF8 0x01] ∧
    decodeVector (toyBoard.vec (if State.reset.cfgVsel then .init3V3 else .init3V5)) = .ok [.wrreg 0xF1 0x00, .nop] ∧
    windowResult (timeoutUs State.reset) ⟨some 35, true⟩ = .ok 35 ∧ windowResult (timeoutUs State.reset) ⟨some 5, true⟩ = .ok 5 ∧
    windowResult (timeoutUs State.reset) ⟨some 0, true⟩ = .ok 0 ∧ windowResult (timeoutUs State.reset) ⟨some 9, true⟩ = .ok 9 :=
  ⟨⟨rfl, rfl⟩, by decide⟩

/-- The reset state with one input waiting meets the invariant. -/
theorem reset_inv (i : HostInput) : Inv toyBoard (given i State.reset) :=
  ⟨rfl, width_of_zero _, rfl, rfl, rfl, fun h => Bool.noConfusion h, fun _ => ⟨rfl, rfl, rfl, rfl, fun _ => ⟨rfl, .inl rfl⟩⟩⟩

/-- A block at the interpreter's loop meets the invariant. -/
theorem running_inv : Inv toyBoard (running [0x00] 0) :=
  ⟨by decide, ⟨by decide, by decide, by decide⟩, by decide, by decide, by decide,
    fun _ => ⟨by decide, by decide, by decide, fun _ => ⟨by decide, by decide⟩⟩, fun h => Bool.noConfusion h⟩

/-- A block about to write `HS`, in `MagicSent`, meets the invariant. -/
theorem moving_inv : Inv toyBoard (doing [.setHs .init1Acked, .setHs .init2Acked, .setHs .ready, .finish]
    { State.reset with hs := .magicSent }) :=
  ⟨rfl, width_of_zero _, rfl, rfl, rfl, fun _ => ⟨rfl, by decide, rfl, fun h => Bool.noConfusion h⟩, fun h => Bool.noConfusion h⟩

/-- The idle block in `Ready` meets the invariant. -/
theorem idle_inv (i : HostInput) : Inv toyBoard (given i idle) :=
  ⟨rfl, width_of_zero _, rfl, rfl, rfl, fun h => Bool.noConfusion h, fun _ => ⟨rfl, rfl, rfl, rfl, fun _ => ⟨rfl, .inr rfl⟩⟩⟩

/-- `HandshakeTransitions`: a step that moves `HS` on, and the acceptance of `ACQUIRE` in `Ready`. -/
theorem witness_HandshakeTransitions :
    (Inv toyBoard (doing [.setHs .init1Acked, .setHs .init2Acked, .setHs .ready, .finish] { State.reset with hs := .magicSent }) ∧
      ∃ t, stepOn toyBoard (doing [.setHs .init1Acked, .setHs .init2Acked, .setHs .ready, .finish]
        { State.reset with hs := .magicSent }) = .next t ∧ nextHs .magicSent = some t.hs ∧ t.hs ≠ .magicSent) ∧
    (Inv toyBoard (given (.cmd .acquire) idle) ∧
      ∃ t, stepOn toyBoard (given (.cmd .acquire) idle) = .next t ∧ t.hs ≠ idle.hs ∧ t.hs = .poweredOff) :=
  ⟨⟨moving_inv, _, rfl, by decide⟩, ⟨idle_inv _, _, rfl, by decide⟩⟩

/-- A block at the start of either path of the handshake meets the invariant. -/
theorem entering_inv (p : Bool) (on : Bool) : Inv toyBoard (doing (acquireProgram p) { State.reset with pwrEn := on }) :=
  ⟨rfl, width_of_zero _, rfl, rfl, rfl,
    fun _ => ⟨rfl, by cases p <;> rfl, by cases p <;> rfl, fun h => by cases p <;> exact Bool.noConfusion h⟩,
    fun h => Bool.noConfusion h⟩

/-- `ResetAndPowerLinesOwned`: steps that change each line, with no reset input. -/
theorem witness_ResetAndPowerLinesOwned :
    Inv toyBoard (doing (acquireProgram false) State.reset) ∧
    (stepped toyBoard (doing (acquireProgram false) State.reset)).xres ≠ State.reset.xres ∧
    Inv toyBoard (doing (acquireProgram true) { State.reset with pwrEn := true }) ∧
    (stepped toyBoard (doing (acquireProgram true) { State.reset with pwrEn := true })).pwrEn ≠ true ∧
    ∀ cut, (doing (acquireProgram false) State.reset).inbox.head? ≠ some (.reset cut) :=
  ⟨entering_inv false false, by decide, entering_inv true true, by decide, by simp [doing, State.reset]⟩

/-- `ReadyGate`: before `Ready`, and in `Ready` with a fault latched. -/
theorem witness_ReadyGate : HostCmd.waitpoll ≠ .acquire ∧
    (Offered (given (.cmd .waitpoll) State.reset) (.cmd .waitpoll) [] ∧
      ¬ ((given (.cmd .waitpoll) State.reset).hs = .ready ∧ (given (.cmd .waitpoll) State.reset).fault.valid = false)) ∧
    (Offered (given (.cmd .waitpoll) { idle with fault := syncFault true }) (.cmd .waitpoll) [] ∧
      ¬ ((given (.cmd .waitpoll) { idle with fault := syncFault true }).hs = .ready ∧
        (given (.cmd .waitpoll) { idle with fault := syncFault true }).fault.valid = false)) :=
  ⟨by decide, ⟨⟨rfl, rfl⟩, by decide⟩, ⟨⟨rfl, rfl⟩, by decide⟩⟩

/-- `BusyTakesNoCommand`. -/
theorem witness_BusyTakesNoCommand : (given (.cmd .acquire) (doing [.finish] idle)).busy = true ∧
    (given (.cmd .acquire) (doing [.finish] idle)).inbox = [.cmd .acquire] ∧
    stepOn toyBoard (given (.cmd .acquire) (doing [.finish] idle)) =
      .next (stepped toyBoard (given (.cmd .acquire) (doing [.finish] idle))) := ⟨rfl, rfl, rfl⟩

/-- `WropResult`, `RdopResult`, `ExecResult`: a ready block, and a vector that decodes and fits. -/
theorem witness_ready (c : HostCmd) : Offered (given (.cmd c) idle) (.cmd c) [] ∧ (given (.cmd c) idle).hs = .ready ∧
    (given (.cmd c) idle).fault.valid = false ∧
    (srcBytes toyBoard (.bytes [0x05, 0xF8, 0x00])).length < 2 ^ toyBoard.pcw ∧
    decodeVector (srcBytes toyBoard (.bytes [0x05, 0xF8, 0x00])) = .ok [.rdmem 0xF8 0x00] :=
  ⟨⟨rfl, rfl⟩, rfl, rfl, by decide, by decide⟩

/-- `ReadDataRegister`, both clauses. -/
theorem witness_ReadDataRegister : (given (.read .rdata) State.reset).inbox = [.read .rdata] ∧
    (given (.read .rdata) State.reset).rdvalid = false ∧
    (given (.read .rdata) { State.reset with rdvalid := true }).rdvalid = true := by decide

/-- `ConfigWrite`: both one-bit registers, and for the timeout the smallest legal value and the one that is not. -/
theorem witness_ConfigWrite : Offered (given (.setVsel true) State.reset) (.setVsel true) [] ∧
    Offered (given (.setRstMode true) State.reset) (.setRstMode true) [] ∧
    Offered (given (.setTimeout 1#32) State.reset) (.setTimeout 1#32) [] ∧
    Offered (given (.setTimeout 0#32) State.reset) (.setTimeout 0#32) [] ∧ 1#32 ≠ 0#32 :=
  ⟨⟨rfl, rfl⟩, ⟨rfl, rfl⟩, ⟨rfl, rfl⟩, ⟨rfl, rfl⟩, by decide⟩

/-- `ConfigOnlyByHost`: steps that change each configuration register. -/
theorem witness_ConfigOnlyByHost :
    stepOn toyBoard (given (.setVsel true) State.reset) = .next (stepped toyBoard (given (.setVsel true) State.reset)) ∧
    (stepped toyBoard (given (.setVsel true) State.reset)).cfgVsel ≠ State.reset.cfgVsel ∧
    (stepped toyBoard (given (.setRstMode true) State.reset)).cfgRstMode ≠ State.reset.cfgRstMode ∧
    (stepped toyBoard (given (.setTimeout 1#32) State.reset)).cfgTimeout ≠ State.reset.cfgTimeout ∧
    ∀ cut, (given (.setVsel true) State.reset).inbox.head? ≠ some (.reset cut) :=
  ⟨rfl, by decide, by decide, by decide, by simp [given]⟩

/-- `AfterResetOnlyAcquire`. -/
theorem witness_AfterResetOnlyAcquire : State.reset.busy = false ∧ State.reset.inbox = [] ∧
    HostCmd.exec (.id .program) ≠ .acquire := by decide

/-- `BlockResetInput`: while idle, in the middle of a command, and at an action that answers no next state. -/
theorem witness_BlockResetInput : (given (.reset 0) State.reset).inbox = [.reset 0] ∧ (given (.reset 0) State.reset).busy = false ∧
    (given (.reset 5) (doing [.wrop .memory 0x80 0xAB, .finish] idle)).busy = true ∧
    (∃ u, runAction toyBoard (doing [.wrop .memory 0x80 0xAB, .finish] idle) = .next u) ∧
    ∀ u, runAction badBoard (doing [.load (.bytes [0x00, 0x00]), .run] idle) ≠ .next u :=
  ⟨rfl, rfl, rfl, ⟨_, rfl⟩, fun _ h => nomatch h⟩

/-- `StepKeepsInv`: steps from states that meet the invariant. -/
theorem witness_StepKeepsInv : Inv toyBoard (given (.cmd .acquire) State.reset) ∧
    (∃ t, stepOn toyBoard (given (.cmd .acquire) State.reset) = .next t) ∧ Inv toyBoard (running [0x00] 0) ∧
    (∃ t, stepOn toyBoard (running [0x00] 0) = .next t) := ⟨reset_inv _, ⟨_, rfl⟩, running_inv, ⟨_, rfl⟩⟩

/-- `StepKeepsInv`, its second clause: a step of the one board from the reset state. -/
theorem witness_StepKeepsInv_step : Inv Config.board State.reset ∧ step State.reset = .next State.reset :=
  ⟨⟨rfl, width_of_zero _, rfl, rfl, rfl, fun h => Bool.noConfusion h, fun _ => ⟨rfl, rfl, rfl, rfl, fun _ => ⟨rfl, .inl rfl⟩⟩⟩, rfl⟩

/-- `SerializerEntryCondition`: its four clauses. -/
theorem witness_SerializerEntryCondition : Inv toyBoard (given (.cmd .waitpoll) idle) ∧ Inv toyBoard (running [0x00] 0) ∧
    Inv toyBoard (doing [.wrop .memory 0x80 0xAB, .finish] idle) ∧ Inv toyBoard (doing [.rdop .memory 0x80, .finishRead] idle) :=
  ⟨idle_inv _, running_inv,
    ⟨rfl, width_of_zero _, rfl, rfl, rfl, fun _ => ⟨rfl, rfl, rfl, fun h => Bool.noConfusion h⟩, fun h => Bool.noConfusion h⟩,
    ⟨rfl, width_of_zero _, rfl, rfl, rfl, fun _ => ⟨rfl, rfl, rfl, fun h => Bool.noConfusion h⟩, fun h => Bool.noConfusion h⟩⟩

/-- `CommandTerminates`. -/
theorem witness_CommandTerminates : Inv toyBoard (running [0x00] 0) ∧ (running [0x00] 0).busy = true ∧
    noInput (running [0x00] 0) = true ∧ ∃ t, stepOn toyBoard (running [0x00] 0) = .next t := ⟨running_inv, rfl, rfl, ⟨_, rfl⟩⟩

/-- `ImageSizeCheckedFirst`: one byte short of a bank. -/
theorem witness_ImageSizeCheckedFirst : (List.replicate 8191 (0x00 : Byte)).length % 8192 ≠ 0 := by
  rw [List.length_replicate]
  decide

/-- `ProgramCommandCount`: a device that ends every command but the reads `Done`, an image of one bank, and this board's
`s = 2`. -/
theorem witness_ProgramCommandCount : (∀ src, (echo 0x00 () (.exec src)).1 = .done) ∧ (echo 0x00 () .waitpoll).1 = .done ∧
    (∀ sp a v, (echo 0x00 () (.wrop sp a v)).1 = .done) ∧
    (List.replicate 8192 (0x00 : Byte)).length = 1 * 8192 ∧ ∀ bank, (toyBoard.setBankSeq bank).length = 2 :=
  ⟨fun _ => rfl, rfl, fun _ _ _ => rfl, by rw [List.length_replicate], fun _ => rfl⟩

/-- `PatchSkipsUnchangedBlock`: a target whose bytes and status are all `00`, and a wanted block of zeros. -/
theorem witness_PatchSkipsUnchangedBlock : (List.replicate 64 (0x00 : Byte)).length = 64 ∧
    (∀ src, (echo 0x00 () (.exec src)).1 = .done) ∧ (echo 0x00 () .waitpoll).1 = .done ∧
    (∀ sp a v, (echo 0x00 () (.wrop sp a v)).1 = .done) ∧
    (∀ i, i < 64 → (echo 0x00 () (.rdop .memory (bufAddr i))).1 = .doneByte ((List.replicate 64 (0x00 : Byte)).getD i 0x00#8)) ∧
    (echo 0x00 () (.rdop .memory 0xF8#8)).1 = .doneByte 0x00#8 := by
  refine ⟨List.length_replicate, fun _ => rfl, rfl, fun _ _ _ => rfl, fun i hi => ?_, rfl⟩
  rw [List.getD_eq_getElem?_getD, List.getElem?_replicate, if_pos hi]
  rfl

/-- `CompilerGroups`: unread positions of each length. -/
theorem witness_CompilerGroups : "111".toList.length = 3 ∧ "ZDDDDDDDDZ1".toList.length = 11 ∧
    "0000000000000000000".toList.length = 19 := by decide

end Sys2Proof.Tests
end

namespace Sys2Proof.Machine

/-! ## What the parts of the invariant say -/

/-- `t` has the vector, the interpreter's registers and the timeout of `s`. -/
structure KeepsVector (s t : State) : Prop where
  vbuf : t.vbuf = s.vbuf
  pc : t.pc = s.pc
  vlen : t.vlen = s.vlen
  timeout : t.cfgTimeout = s.cfgTimeout

/-- Only the start of a vector puts a `run` next. -/
theorem runsLoaded_tail {first : Bool} {a : Action} {rest : List Action} (h : runsLoaded first (a :: rest) = true)
    (hl : ∀ src, a ≠ .load src) (h3 : a ≠ .loadInit3) : runsLoaded false rest = true := by
  cases a <;> simp_all [runsLoaded]

theorem atRun_of_runsLoaded {s : State} (h : runsLoaded false s.todo = true) : atRun s = false := by
  rcases ht : s.todo with _ | ⟨a, rest⟩
  · simp [atRun, ht]
  · cases a <;> simp_all [runsLoaded, atRun]

theorem faultWf_syncFault (fall : Bool) : faultWf (syncFault fall) = true := by cases fall <;> rfl

theorem fault_eq_clear {f : FaultReg} (hf : faultWf f = true) (hv : f.valid = false) : f = FaultReg.clear := by
  cases hc : f.cause <;> simp_all [faultWf]

/-- The invariant where a command runs on, the interpreter's loop not being next. -/
theorem Inv.running {b : Board} {s t : State} (hi : Inv b s) (hk : KeepsVector s t) (hf : t.fault = FaultReg.clear)
    (hb : t.busy = true) (hc : t.sclk = (t.tmr == .armedLow)) (ho : sequenced (seqView t) t.todo = true)
    (hl : runsLoaded false t.todo = true) : Inv b t where
  memory := hk.vbuf ▸ hi.memory
  width := ⟨hk.pc ▸ hi.width.pc, hk.vlen ▸ hi.width.vlen, hf ▸ Nat.two_pow_pos _⟩
  timeout := hk.timeout ▸ hi.timeout
  fault := hf ▸ rfl
  clock := hc
  busy _ := by
    have hr := atRun_of_runsLoaded hl
    exact ⟨hf ▸ rfl, ho, hr ▸ hl, fun h => absurd h (by simp [hr])⟩
  idle h := absurd h (by simp [hb])

/-- The invariant after an action that leaves the fault register and goes on. -/
theorem Inv.goesOn {b : Board} {s t : State} (hi : Inv b s) (hb : s.busy = true) (hk : KeepsVector s t)
    (hf : t.fault = s.fault) (htb : t.busy = s.busy) (hc : t.sclk = (t.tmr == .armedLow))
    (ho : sequenced (seqView t) t.todo = true) (hl : runsLoaded false t.todo = true) : Inv b t :=
  hi.running hk (hf.trans (fault_eq_clear hi.fault (hi.busy hb).noFault)) (htb.trans hb) hc ho hl

/-- The invariant where a command ends. -/
theorem Inv.ends {b : Board} {s t : State} (hi : Inv b s) (hk : KeepsVector s t) (hf : faultWf t.fault = true)
    (hp : t.fault.pc < 2 ^ b.pcw) (hc : t.sclk = false) (hb : t.busy = false) (ht : IdleInv t) : Inv b t where
  memory := hk.vbuf ▸ hi.memory
  width := ⟨hk.pc ▸ hi.width.pc, hk.vlen ▸ hi.width.vlen, hp⟩
  timeout := hk.timeout ▸ hi.timeout
  fault := hf
  clock := by simp [hc, ht.tmr]
  busy h := absurd h (by simp [hb])
  idle _ := ht

@[simp] theorem seqView_oe (s : State) : (seqView s).oe = s.sdataOe := rfl
@[simp] theorem seqView_xres (s : State) : (seqView s).xres = s.xres := rfl
@[simp] theorem seqView_tmr (s : State) : (seqView s).tmr = s.tmr := rfl
@[simp] theorem seqView_measuring (s : State) : (seqView s).measuring = s.mcnt.isSome := rfl
@[simp] theorem seqView_hs (s : State) : (seqView s).hs = s.hs := rfl

theorem seqView_frame {s : State} :
    (seqView s).frame = true ↔ s.tmr = .idle ∧ s.mcnt = none ∧ s.sdataOe = true ∧ s.xres = false := by
  simp [SeqView.frame, SeqView.quiet, and_assoc]

theorem seqView_poll {s : State} : (seqView s).poll = true ↔ s.sdataOe = false ∧ s.xres = false := by
  simp [SeqView.poll]

/-! ## The actions that only move the pins -/

/-- The actions that only move the pins, the timer or the handshake and go on. -/
def Action.movesPins : Action → Bool
  | .setHs _ | .drive _ | .dirIn | .dirOut | .pulses _ | .xres _ | .power _ | .delay _ | .magic
  | .startPoll | .timer | .stopPoll | .wrop .. | .rdop .. => true
  | _ => false

/-- The view after one of them. -/
def SeqView.after (v : SeqView) : Action → SeqView
  | .setHs h => { v with hs := h }
  | .dirIn => { v with oe := false }
  | .dirOut | .rdop .. => { v with oe := true }
  | .xres on => { v with xres := on }
  | .startPoll => { v with tmr := .armedHigh }
  | .timer => { v with tmr := if v.tmr == .armedHigh then .armedLow else .idle }
  | .stopPoll => { v with tmr := .idle, measuring := false }
  | _ => v

/-- What follows such an action stands in order from the view after it, and the timer is idle at all but its own. -/
theorem sequenced_movesPins {v : SeqView} {a : Action} {rest : List Action} (ha : a.movesPins = true)
    (h : sequenced v (a :: rest) = true) : sequenced (v.after a) rest = true ∧ (v.tmr = .idle ∨ a = .timer) := by
  rcases v with ⟨oe, xres, tmr, measuring, hs⟩
  cases a <;> grind [Action.movesPins, sequenced, SeqView.after, SeqView.quiet, SeqView.frame]

/-- The view, the registers and the clock after such an action. -/
theorem doAction_movesPins {b : Board} {a : Action} {s t : State} (ha : a.movesPins = true)
    (hd : doAction b a s = .next t) :
    seqView t = (seqView s).after a ∧ t.todo = s.todo ∧ KeepsVector s t ∧ t.fault = s.fault ∧ t.busy = s.busy ∧
    (s.sclk = (s.tmr == .armedLow) → s.tmr = .idle ∨ a = .timer → t.sclk = (t.tmr == .armedLow)) := by
  cases a <;> simp only [Action.movesPins, reduceCtorEq] at ha <;> obtain rfl := Host.Outcome.next.inj hd
  case timer =>
    cases htm : s.tmr <;> refine ⟨?_, ?_, ⟨?_, ?_, ?_, ?_⟩, ?_⟩ <;>
    simp +contextual [timerExpiry, htm, seqView, SeqView.after]
  all_goals
    refine ⟨?_, ?_, ⟨?_, ?_, ?_, ?_⟩, ?_⟩ <;>
    simp +contextual [seqView, SeqView.after, pulses_eq, sendMagic_eq, writeOp_eq, readAndLog_eq]

/-! ## The actions inside a window of wait-and-poll -/

/-- The actions between the timer's pulse and the end of the poll clock. -/
def Action.inWindow : Action → Bool
  | .riseEnd _ | .fall .. | .fallEnd .. => true
  | _ => false

theorem sequenced_inWindow {v : SeqView} {a : Action} {rest : List Action} (ha : a.inWindow = true) :
    sequenced v (a :: rest) = true ↔ v.poll = true ∧ v.measuring = true ∧ v.tmr = .idle ∧ sequenced v rest = true := by
  cases a <;> simp_all [Action.inWindow, sequenced, and_assoc]

theorem runsLoaded_inWindow {first : Bool} {a : Action} {rest : List Action} (ha : a.inWindow = true) :
    runsLoaded first (a :: rest) = runsLoaded false rest := by
  cases a <;> simp_all [Action.inWindow, runsLoaded]

/-! ## The actions of a running command -/

/-- A running command under the invariant whose next action is `a`. -/
structure Acting (b : Board) (a : Action) (rest : List Action) (s : State) : Prop where
  inv : Inv b s
  busy : s.busy = true
  todo : s.todo = a :: rest

section
variable {b : Board} {a : Action} {rest : List Action} {s t : State}

theorem Acting.order (h : Acting b a rest s) : sequenced (seqView s) (a :: rest) = true :=
  h.todo ▸ (h.inv.busy h.busy).order

theorem Acting.loaded (h : Acting b a rest s) : runsLoaded (atRun s) (a :: rest) = true :=
  h.todo ▸ (h.inv.busy h.busy).loaded

theorem Acting.movesPins_inv (h : Acting b a rest s) (ha : a.movesPins = true)
    (hd : doAction b a { s with todo := rest } = .next t) : Inv b t := by
  obtain ⟨hv, ht, hk, hf, hb, hc⟩ := doAction_movesPins ha hd
  obtain ⟨hq, htm⟩ := sequenced_movesPins ha h.order
  have hl : runsLoaded false rest = true := runsLoaded_tail h.loaded (by rintro _ rfl; simp [Action.movesPins] at ha)
    (by rintro rfl; simp [Action.movesPins] at ha)
  exact h.inv.goesOn h.busy ⟨hk.vbuf, hk.pc, hk.vlen, hk.timeout⟩ hf hb (hc h.inv.clock htm) (hv ▸ ht ▸ hq) (ht ▸ hl)

/-- A vector that starts is in the buffer from its first byte on, and its `run` is next. -/
theorem Acting.startExec_inv {src : VecSrc} (h : Acting b a rest s) (ha : a = .load src ∨ a = .loadInit3)
    (hd : startExec b src { s with todo := rest } = .next t) : Inv b t := by
  have ⟨hq, hr⟩ : sequenced (seqView s) rest = true ∧ rest.head? = some .run := by
    have := h.order
    rcases ha with rfl | rfl <;> simp_all [sequenced]
  have hl : runsLoaded true rest = true := by
    have := h.loaded
    rcases ha with rfl | rfl <;> simpa [runsLoaded] using this
  have hrun : atRun { s with todo := rest } = true := by simp [atRun, hr]
  unfold startExec at hd
  split at hd
  · next hlen =>
    obtain rfl := Host.Outcome.next.inj hd
    exact {
      memory := Memory.ofBytes_wf _
      width := ⟨Nat.two_pow_pos _, hlen, h.inv.width.faultPc⟩
      timeout := h.inv.timeout
      fault := h.inv.fault
      clock := h.inv.clock
      busy := fun _ => ⟨(h.inv.busy h.busy).noFault, hq, by exact hrun ▸ hl, fun _ => ⟨Nat.zero_le _, Memory.mem_ofBytes _⟩⟩
      idle := fun hb => absurd hb (by simp [h.busy]) }
  · cases hd

/-- An instruction of the running vector leaves the block at the loop, at most at the vector's end. -/
theorem Acting.afterInstr_inv {i : Instr} (h : Acting b .run rest s) (hoe : s.sdataOe = true) (htm : s.tmr = .idle)
    (hlen : s.pc + instrLength i ≤ s.vlen) : Inv b (afterInstr i s) := by
  obtain ⟨hvb, hvl, -, hhs, hbusy, hf, -, -, hto, hx, -, htmr, hm, htodo, -⟩ := afterInstr_keeps i s
  have hpc := afterInstr_pc i s
  have hi := h.inv
  have hr := hi.busy h.busy
  have hrun : atRun (afterInstr i s) = atRun s := by rw [atRun, htodo, atRun]
  have hview : seqView (afterInstr i s) = seqView s := by
    simp [seqView, afterInstr_sdataOe i hoe, hoe, hhs, hx, htmr, hm]
  exact {
    memory := hvb ▸ hi.memory
    width := ⟨by have := hi.width.vlen; omega, hvl ▸ hi.width.vlen, hf ▸ hi.width.faultPc⟩
    timeout := hto ▸ hi.timeout
    fault := hf ▸ hi.fault
    clock := by simp [afterInstr_sclk, htmr, htm]
    busy := fun _ => {
      noFault := hf ▸ hr.noFault
      order := by rw [hview, htodo]; exact hr.order
      loaded := by rw [hrun, htodo]; exact hr.loaded
      vector := fun _ => ⟨by omega, hvb ▸ hvl ▸ (hr.vector (by simp [atRun, h.todo])).2⟩ }
    idle := fun hb => absurd hb (by simp [hbusy, h.busy]) }

theorem Acting.run_inv (h : Acting b .run rest s) (hd : doAction b .run { s with todo := rest } = .next t) : Inv b t := by
  have hi := h.inv
  have ⟨hframe, hq⟩ : (seqView s).frame = true ∧ sequenced (seqView s) rest = true := by
    have := h.order
    simp_all [sequenced]
  obtain ⟨htm, hm, hoe, hx⟩ := seqView_frame.1 hframe
  have hs : { s with todo := .run :: rest } = s := by rw [← h.todo]
  have hd : runVector rest s = .next t := hs ▸ hd
  obtain ⟨i, hlen, rfl⟩ | ⟨-, rfl⟩ | ⟨c, hc, rfl⟩ := runVector_cases hd
  · exact h.afterInstr_inv hoe htm hlen
  · exact hi.goesOn h.busy ⟨rfl, rfl, rfl, rfl⟩ rfl rfl hi.clock hq (runsLoaded_tail h.loaded (by simp) (by simp))
  · refine hi.ends ⟨rfl, rfl, rfl, rfl⟩ ?_ hi.width.pc ?_ rfl ⟨rfl, htm, hm, hx, by simp⟩
    · rcases hc with rfl | rfl <;> rfl
    · simp [hi.clock, htm]

theorem Acting.rise_inv (h : Acting b .rise rest s) : Inv b (riseOpen { s with todo := rest }) := by
  have hl : runsLoaded false rest = true := runsLoaded_tail h.loaded (by simp) (by simp)
  have hq := h.order
  rw [riseOpen_eq]
  refine h.inv.goesOn h.busy ⟨rfl, rfl, rfl, rfl⟩ rfl rfl h.inv.clock ?_ (by simpa [runsLoaded] using hl)
  grind [sequenced, seqView, SeqView.poll]

/-- An action inside a window goes on: only the clock's pulses, the count and the script moved. -/
theorem Acting.staysInWindow (h : Acting b a rest s) (ha : a.inWindow = true) (hk : KeepsVector s t)
    (hf : t.fault = s.fault) (hb : t.busy = s.busy) (hv : seqView t = seqView s) (hc : t.sclk = false)
    (ht : t.todo = rest ∨ ∃ a', a'.inWindow = true ∧ t.todo = a' :: rest) : Inv b t := by
  have hq := h.order
  have hl := h.loaded
  rw [runsLoaded_inWindow ha] at hl
  obtain ⟨-, -, htm, hrest⟩ := (sequenced_inWindow ha).1 hq
  have hclk : t.sclk = (t.tmr == .armedLow) := by rw [hc, ← seqView_tmr, hv, htm]; rfl
  obtain ht | ⟨a', ha', ht⟩ := ht
  · exact h.inv.goesOn h.busy hk hf hb hclk (hv ▸ ht ▸ hrest) (ht ▸ hl)
  · refine h.inv.goesOn h.busy hk hf hb hclk ?_ (by rwa [ht, runsLoaded_inWindow ha'])
    rw [hv, ht, sequenced_inWindow ha', ← sequenced_inWindow ha]
    exact hq

/-- A window that times out ends the command with the fault of its phase. -/
theorem Acting.timesOut {fall : Bool} {u : State} (h : Acting b a rest s) (hk : KeepsVector s u) (hc : u.sclk = false)
    (htm : u.tmr = .idle) (hm : u.mcnt = none) (hx : u.xres = false) : Inv b (raise (syncFault fall) u) :=
  h.inv.ends ⟨hk.vbuf, hk.pc, hk.vlen, hk.timeout⟩ (faultWf_syncFault fall) (Nat.two_pow_pos _) hc rfl
    ⟨rfl, htm, hm, hx, by simp [syncFault]⟩

theorem Acting.riseEnd_inv {r : MeasResult} (h : Acting b (.riseEnd r) rest s) :
    Inv b (riseClose r { s with todo := rest }) := by
  obtain ⟨hpoll, hm, htm, -⟩ := (sequenced_inWindow rfl).1 h.order
  have hclk : s.sclk = false := by simp_all [h.inv.clock]
  cases r with
  | ok t =>
    rw [riseClose_ok]
    refine h.staysInWindow rfl ⟨?_, ?_, ?_, ?_⟩ ?_ ?_ ?_ ?_ (.inr ⟨_, rfl, rfl⟩) <;>
    simp_all [pollPulses_eq, seqView]
  | timeout =>
    refine h.timesOut ⟨?_, ?_, ?_, ?_⟩ rfl rfl rfl ?_ <;> simp [pollPulses_eq, (seqView_poll.1 hpoll).2]

theorem Acting.fall_inv {t1 k1 : Nat} (h : Acting b (.fall t1 k1) rest s) :
    Inv b (fallOpen t1 k1 { s with todo := rest }) := by
  obtain ⟨-, hm, htm, -⟩ := (sequenced_inWindow rfl).1 h.order
  rw [fallOpen_eq]
  refine h.staysInWindow rfl ⟨rfl, rfl, rfl, rfl⟩ rfl rfl ?_ ?_ (.inr ⟨_, rfl, rfl⟩) <;>
  simp_all [seqView, h.inv.clock]

theorem Acting.fallEnd_inv {t1 k1 : Nat} {r : MeasResult} (h : Acting b (.fallEnd t1 k1 r) rest s) :
    Inv b (fallClose t1 k1 r { s with todo := rest }) := by
  obtain ⟨hpoll, hm, htm, -⟩ := (sequenced_inWindow rfl).1 h.order
  have hclk : s.sclk = false := by simp_all [h.inv.clock]
  cases r with
  | ok t =>
    rw [fallClose_ok]
    refine h.staysInWindow rfl ⟨?_, ?_, ?_, ?_⟩ ?_ ?_ ?_ ?_ (.inl ?_) <;>
    simp_all [pollPulses_eq, seqView]
  | timeout =>
    refine h.timesOut ⟨?_, ?_, ?_, ?_⟩ rfl rfl rfl ?_ <;> simp [pollPulses_eq, (seqView_poll.1 hpoll).2]

theorem Acting.detect_inv {l : Level} (h : Acting b (.detect l) rest s) : Inv b (detectPulse l { s with todo := rest }) := by
  have ⟨htm, hm, hpoll, hq⟩ : s.tmr = .idle ∧ s.mcnt = none ∧ (seqView s).poll = true ∧ sequenced (seqView s) rest = true := by
    have := h.order
    simp_all [sequenced, SeqView.quiet]
  cases hr : measureResult l { s with todo := rest } with
  | ok t =>
    rw [detectPulse_ok hr]
    exact h.inv.goesOn h.busy ⟨rfl, rfl, rfl, rfl⟩ rfl rfl h.inv.clock hq (runsLoaded_tail h.loaded (by simp) (by simp))
  | timeout =>
    rw [detectPulse_timeout hr]
    exact h.timesOut ⟨rfl, rfl, rfl, rfl⟩ (by simp [h.inv.clock, htm]) htm hm (seqView_poll.1 hpoll).2

theorem Acting.finish_inv {r : Reply} (h : Acting b a rest s) (ha : a = .finish ∨ a = .finishRead) :
    Inv b (complete r { s with todo := rest }) := by
  have ⟨hframe, hhs⟩ : (seqView s).frame = true ∧ s.hs = .ready := by
    have := h.order
    rcases ha with rfl | rfl <;> simp_all [sequenced]
  obtain ⟨htm, hm, hoe, hx⟩ := seqView_frame.1 hframe
  exact h.inv.ends ⟨rfl, rfl, rfl, rfl⟩ h.inv.fault h.inv.width.faultPc (by simp [h.inv.clock, htm]) rfl
    ⟨rfl, htm, hm, hx, fun _ => ⟨hoe, .inr hhs⟩⟩

/-- Every action of a running command keeps the invariant. -/
theorem Acting.doAction_inv (h : Acting b a rest s) (hd : doAction b a { s with todo := rest } = .next t) : Inv b t := by
  cases a
  case load => exact h.startExec_inv (.inl rfl) hd
  case loadInit3 => exact h.startExec_inv (.inr rfl) hd
  case run => exact h.run_inv hd
  case rise => exact Host.Outcome.next.inj hd ▸ h.rise_inv
  case riseEnd => exact Host.Outcome.next.inj hd ▸ h.riseEnd_inv
  case fall => exact Host.Outcome.next.inj hd ▸ h.fall_inv
  case fallEnd => exact Host.Outcome.next.inj hd ▸ h.fallEnd_inv
  case detect => exact Host.Outcome.next.inj hd ▸ h.detect_inv
  case finish => exact Host.Outcome.next.inj hd ▸ h.finish_inv (.inl rfl)
  case finishRead => exact Host.Outcome.next.inj hd ▸ h.finish_inv (.inr rfl)
  all_goals exact h.movesPins_inv rfl hd

end

/-! ## The inputs -/

/-- The fields that only the host reads or writes are free, but for the timeout 0. -/
theorem Inv.hostFields {b : Board} {s t : State} (hi : Inv b s)
    (h : { t with
      inbox := s.inbox, reply := s.reply, rdlog := s.rdlog
      cfgVsel := s.cfgVsel, cfgRstMode := s.cfgRstMode, cfgTimeout := s.cfgTimeout } = s)
    (ht : timeoutLegal t.cfgTimeout = true) : Inv b t := by
  rw [← h] at hi
  obtain ⟨hm, ⟨hpc, hvl, hfp⟩, -, hf, hc, hb, hidle⟩ := hi
  refine ⟨hm, ⟨hpc, hvl, hfp⟩, ht, hf, hc, fun hbt => ?_, fun hbt => ?_⟩
  · obtain ⟨hnf, ho, hl, hv⟩ := hb hbt
    exact ⟨hnf, ho, hl, hv⟩
  · obtain ⟨htd, htm, hmc, hx, hr⟩ := hidle hbt
    exact ⟨htd, htm, hmc, hx, hr⟩

/-- A block that is ready stands at rest in output mode. -/
theorem Inv.seqView_ready {b : Board} {s : State} (hi : Inv b s) (hb : s.busy = false) (hr : ready s = true) :
    s.fault = FaultReg.clear ∧ seqView s = { oe := true, xres := false, tmr := .idle, measuring := false, hs := .ready } := by
  obtain ⟨-, htm, hm, hx, hrest⟩ := hi.idle hb
  have ⟨hhs, hv⟩ : s.hs = .ready ∧ s.fault.valid = false := by simpa [ready] using hr
  exact ⟨fault_eq_clear hi.fault hv, by simp [seqView, (hrest hv).1, hx, htm, hm, hhs]⟩

/-- Both entry paths and the tail stand in order from either direction of the line. -/
theorem sequenced_acquireProgram (p oe : Bool) :
    sequenced { oe := oe, xres := false, tmr := .idle, measuring := false, hs := .poweredOff } (acquireProgram p) = true := by
  cases p <;> cases oe <;> decide

theorem Inv.acquire {b : Board} {s : State} (hi : Inv b s) (hb : s.busy = false) (p : Bool) :
    Inv b (startCommand (acquireProgram p) (acquireStart s)) := by
  obtain ⟨-, htm, hm, hx, -⟩ := hi.idle hb
  refine hi.running ⟨rfl, rfl, rfl, rfl⟩ rfl rfl hi.clock ?_ (by cases p <;> rfl)
  have hv : seqView (startCommand (acquireProgram p) (acquireStart s)) =
      { oe := s.sdataOe, xres := false, tmr := .idle, measuring := false, hs := .poweredOff } := by
    simp [seqView, htm, hm, hx]
  exact hv ▸ sequenced_acquireProgram p s.sdataOe

/-- A command that starts in a ready block. -/
theorem Inv.startsReady {b : Board} {s : State} {prog : List Action} (hi : Inv b s) (hb : s.busy = false)
    (hr : ready s = true) (log : List ReadRec)
    (ho : sequenced { oe := true, xres := false, tmr := .idle, measuring := false, hs := .ready } prog = true)
    (hl : runsLoaded false prog = true) : Inv b (startCommand prog { s with rdlog := log }) := by
  obtain ⟨hf, hv⟩ := hi.seqView_ready hb hr
  exact hi.running ⟨rfl, rfl, rfl, rfl⟩ hf rfl hi.clock (hv ▸ ho) hl

theorem acceptCommand_keeps_inv {b : Board} {s : State} (hi : Inv b s) (hb : s.busy = false) (c : HostCmd) :
    Inv b (acceptCommand b c s) := by
  have hrefuse : Inv b (refuse s) := hi.hostFields rfl hi.timeout
  cases c <;> simp only [acceptCommand] <;> split
  case acquire.isFalse => exact hi.acquire hb _
  case exec.isTrue hr | wrop.isTrue hr | rdop.isTrue hr | waitpoll.isTrue hr => exact hi.startsReady hb hr _ rfl rfl
  all_goals exact hrefuse

theorem resetTo_inv (b : Board) (d : ResetDraw) {s : State} (hm : Memory.wf s.vbuf = true) : Inv b (resetTo b d s) where
  memory := hm
  width := ⟨(resetTo_width b d s).1, (resetTo_width b d s).2, Nat.two_pow_pos _⟩
  timeout := rfl
  fault := rfl
  clock := rfl
  busy h := absurd h (by simp [resetTo, State.reset])
  idle _ := ⟨rfl, rfl, rfl, rfl, fun _ => ⟨rfl, .inl rfl⟩⟩

/-- A running command has an action left. -/
theorem Inv.todo_ne_nil {b : Board} {s : State} (hi : Inv b s) (hb : s.busy = true) : s.todo ≠ [] := by
  intro ht
  have := (hi.busy hb).order
  simp [ht, sequenced] at this

theorem runAction_keeps_inv {b : Board} {s t : State} (hi : Inv b s) (hb : s.busy = true) (h : runAction b s = .next t) :
    Inv b t := by
  unfold runAction at h
  split at h
  · next ht => exact absurd ht (hi.todo_ne_nil hb)
  · next a rest ht => exact Acting.doAction_inv ⟨hi, hb, ht⟩ h

theorem resetInput_keeps_inv {b : Board} {s : State} (hi : Inv b s) (cut : Nat) : Inv b (resetInput b cut s) := by
  obtain ⟨hb, t, ht, he⟩ | ⟨-, he⟩ := resetInput_cases b cut s
  · exact he ▸ resetTo_inv b _ (runAction_keeps_inv hi hb ht).memory
  · exact he ▸ resetTo_inv b _ hi.memory

/-- A register read that answers a next state changes the answer alone. -/
theorem serveRead_next {r : HostReg} {s t : State} (h : serveRead r s = .next t) :
    ∃ v, t = { s with reply := some (.value v) } := by
  unfold serveRead at h
  split at h
  · exact ⟨_, (Host.Outcome.next.inj h).symm⟩
  · cases h

/-- Every input that is taken keeps the invariant; a `wait` is the block's own step. -/
theorem serveInput_keeps_inv {b : Board} {i : HostInput} {s t : State} (hi : Inv b s) (hs : servedNow s i = true)
    (hw : i ≠ .wait) (h : serveInput b i s = .next t) : Inv b t := by
  cases i with
  | cmd c => exact Host.Outcome.next.inj h ▸ acceptCommand_keeps_inv hi (by simpa [servedNow] using hs) c
  | setVsel v | setRstMode v => exact Host.Outcome.next.inj h ▸ hi.hostFields rfl hi.timeout
  | setTimeout w =>
    obtain rfl := Host.Outcome.next.inj h
    unfold writeTimeout
    split
    · next hl => exact hi.hostFields rfl hl
    · exact hi.hostFields rfl hi.timeout
  | read r =>
    obtain ⟨v, rfl⟩ := serveRead_next h
    exact hi.hostFields rfl hi.timeout
  | reset cut => exact Host.Outcome.next.inj h ▸ resetInput_keeps_inv hi cut
  | wait => exact absurd rfl hw

/-- One step keeps the invariant. -/
theorem stepOn_keeps_inv {b : Board} {s t : State} (hi : Inv b s) (h : stepOn b s = .next t) : Inv b t := by
  have hinbox : ∀ inb, Inv b { s with inbox := inb } := fun inb => hi.hostFields rfl hi.timeout
  obtain ⟨hb, inb, -, a, rest, ht, hd⟩ | ⟨hb, inb, -, ht, -⟩ | ⟨i, rest, -, hw, hs, hd⟩ | ⟨-, inb, -, rfl⟩ := stepOn_cases h
  · exact Acting.doAction_inv ⟨hinbox inb, hb, ht⟩ hd
  · exact absurd ht (hi.todo_ne_nil hb)
  · exact serveInput_keeps_inv (hinbox rest) hs hw hd
  · exact hinbox inb

/-- Settles O54: each action of a running command and each input is shown to keep the invariant. -/
theorem stepKeepsInv : Obligations.StepKeepsInv := by
  unfold Obligations.StepKeepsInv
  exact ⟨fun _ _ _ hi h => stepOn_keeps_inv hi h, fun _ _ hi h => stepOn_keeps_inv hi h⟩

/-! ## The frame of an instruction -/

/-- A no-op or a write leaves the read registers, the sample script and the direction. -/
theorem afterInstr_of_readCount_zero {i : Instr} (h : readCount [i] = 0) (s : State) :
    (afterInstr i s).rdata = s.rdata ∧ (afterInstr i s).rdvalid = s.rdvalid ∧ (afterInstr i s).rdlog = s.rdlog ∧
    (afterInstr i s).samples = s.samples ∧ (afterInstr i s).sdataOe = s.sdataOe := by
  cases i with
  | nop => simp [afterInstr, writeNoOp_eq]
  | wrmem | wrreg => simp [afterInstr, writeOp_eq]
  | rdmem | rdreg => simp [readCount] at h

/-- A read appends one record. -/
theorem afterInstr_rdlog_of_readCount_one {i : Instr} (h : readCount [i] = 1) (s : State) :
    ∃ r, (afterInstr i s).rdlog = s.rdlog ++ [r] := by
  cases i with
  | nop | wrmem | wrreg => simp [readCount] at h
  | rdmem | rdreg => simp [afterInstr, readAndLog_eq]

/-- Settles O9: an instruction's meaning is given by the serializer's frames. -/
theorem bytecodeFrame : Obligations.BytecodeFrame := by
  unfold Obligations.BytecodeFrame
  intro i s
  obtain ⟨hvb, hvl, hvs, hhs, hb, hf, hcv, hcr, hct, hx, hp, htm, hm, htd, hre, hin, hed, hpo⟩ := afterInstr_keeps i s
  exact ⟨afterInstr i s, exec_eq i s, fun _ => by rw [hvb], hvl, hvs, hhs, hb, hf, hcv, hcr, hct, hx, hp, htm, hm, htd, hre,
    hin, hed, hpo, afterInstr_pc i s, ⟨_, (afterInstr_trace i s).symm⟩, fun h => afterInstr_of_readCount_zero h s,
    fun h => afterInstr_rdlog_of_readCount_one h s⟩

/-! ## The fault register -/

/-- An input other than a reset or a `wait` leaves a latched fault or, an accepted `ACQUIRE`, clears it. -/
theorem serveInput_fault {b : Board} {i : HostInput} {s t : State} (h : serveInput b i s = .next t)
    (hr : ∀ cut, i ≠ .reset cut) (hw : i ≠ .wait) : t.fault = s.fault ∨ t.fault = FaultReg.clear := by
  cases i with
  | reset cut => exact absurd rfl (hr cut)
  | wait => exact absurd rfl hw
  | cmd c =>
    obtain rfl := Host.Outcome.next.inj h
    cases c <;> simp only [acceptCommand] <;> split <;> simp
  | read r =>
    obtain ⟨v, rfl⟩ := serveRead_next h
    exact .inl rfl
  | setTimeout w =>
    obtain rfl := Host.Outcome.next.inj h
    unfold writeTimeout
    split <;> simp
  | setVsel v | setRstMode v =>
    obtain rfl := Host.Outcome.next.inj h
    exact .inl rfl

/-- The reset input clears the fault register. -/
theorem resetInput_fault (b : Board) (cut : Nat) (s : State) : (resetInput b cut s).fault = FaultReg.clear := by
  obtain ⟨d, es, sa, ed, po, vb, he, -⟩ := resetInput_eq b cut s
  rw [he]
  rfl

/-- Settles O25: with a fault latched no command runs, so that the step is an input's. -/
theorem faultNeverOverwritten : Obligations.FaultNeverOverwritten := by
  unfold Obligations.FaultNeverOverwritten
  intro b s t hi hv h
  have hidle : s.busy ≠ true := fun hb => by simp [(hi.busy hb).noFault] at hv
  obtain ⟨hb, -⟩ | ⟨hb, -⟩ | ⟨i, rest, -, hw, -, hd⟩ | ⟨-, inb, -, rfl⟩ := stepOn_cases h
  · exact absurd hb hidle
  · exact absurd hb hidle
  · by_cases hr : ∃ cut, i = .reset cut
    · obtain ⟨cut, rfl⟩ := hr
      exact .inr (Host.Outcome.next.inj hd ▸ resetInput_fault b cut _)
    · exact serveInput_fault (s := { s with inbox := rest }) hd (fun cut hc => hr ⟨cut, hc⟩) hw
  · exact .inl rfl

/-! ## Steps that are no block reset -/

/-- Everything such a step can be: the next action of the running command, an input that is taken, or the end of a command
without actions or a wait, which write no register but `BUSY`. -/
theorem stepOn_cases_of_not_reset {b : Board} {s t : State} (h : stepOn b s = .next t)
    (hr : ∀ cut, s.inbox.head? ≠ some (.reset cut)) :
    (s.busy = true ∧ ∃ inb a rest, s.todo = a :: rest ∧ doAction b a { s with inbox := inb, todo := rest } = .next t) ∨
    (∃ i rest, s.inbox = i :: rest ∧ i ≠ .wait ∧ (∀ cut, i ≠ .reset cut) ∧ servedNow s i = true ∧
      serveInput b i { s with inbox := rest } = .next t) ∨
    (∃ inb, t = complete .done { s with inbox := inb } ∨ t = { s with inbox := inb }) := by
  obtain ⟨hb, inb, -, a, rest, ht, hd⟩ | ⟨-, inb, -, -, he⟩ | ⟨i, rest, hin, hw, hs, hd⟩ | ⟨-, inb, -, he⟩ := stepOn_cases h
  · exact .inl ⟨hb, inb, a, rest, ht, hd⟩
  · exact .inr (.inr ⟨inb, .inl he⟩)
  · exact .inr (.inl ⟨i, rest, hin, hw, fun cut hc => hr cut (by simp [hin, hc]), hs, hd⟩)
  · exact .inr (.inr ⟨inb, .inr he⟩)

/-- The reset and power lines are written only on the entry paths. -/
theorem entry_of_sequenced {v : SeqView} {a : Action} {rest : List Action} (h : sequenced v (a :: rest) = true)
    (ha : (∃ on, a = .xres on) ∨ ∃ on, a = .power on) : v.hs = .poweredOff ∨ v.hs = .resetting := by
  rcases ha with ⟨on, rfl⟩ | ⟨on, rfl⟩ <;> simp_all [sequenced, SeqView.entry]

/-- Settles O41: only the two actions write the lines, and the order of a command's actions puts them on the entry paths. -/
theorem resetAndPowerLinesOwned : Obligations.ResetAndPowerLinesOwned := by
  unfold Obligations.ResetAndPowerLinesOwned
  intro b s t hi h hr
  obtain ⟨hb, inb, a, rest, ht, hd⟩ | ⟨i, rest, -, hw, hnr, -, hd⟩ | ⟨inb, rfl | rfl⟩ := stepOn_cases_of_not_reset h hr
  · have hq : sequenced (seqView s) (a :: rest) = true := ht ▸ (hi.busy hb).order
    obtain ⟨-, -, -, -, -, hx, hp, -⟩ := doAction_keeps hd
    refine ⟨fun hne => ?_, fun hne => ?_⟩
    · obtain ⟨on, rfl⟩ := not_forall_not.1 (mt hx hne)
      exact ⟨hb, entry_of_sequenced hq (.inl ⟨on, rfl⟩), rest, by rw [ht, ← Host.Outcome.next.inj hd]; rfl⟩
    · obtain ⟨on, rfl⟩ := not_forall_not.1 (mt hp hne)
      exact ⟨hb, entry_of_sequenced hq (.inr ⟨on, rfl⟩), rest, by rw [ht, ← Host.Outcome.next.inj hd]; rfl⟩
  · obtain ⟨-, -, -, -, -, hx, hp, -⟩ := serveInput_keeps hd hnr hw
    exact ⟨fun hne => absurd hx hne, fun hne => absurd hp hne⟩
  · simp
  · simp

/-- Settles O49: no action of a command writes a configuration register, and an input writes one only where it is its own. -/
theorem configOnlyByHost : Obligations.ConfigOnlyByHost := by
  unfold Obligations.ConfigOnlyByHost
  intro b s t h hr
  obtain ⟨-, inb, a, rest, -, hd⟩ | ⟨i, rest, hin, hw, hnr, hs, hd⟩ | ⟨inb, rfl | rfl⟩ := stepOn_cases_of_not_reset h hr
  · obtain ⟨hv, hm, hto, -⟩ := doAction_keeps hd
    simp [hv, hm, hto]
  · obtain ⟨hv, hm, hto, -⟩ := serveInput_keeps hd hnr hw
    rw [hin]
    refine ⟨fun hne => ?_, fun hne => ?_, fun hne => ?_⟩
    · obtain ⟨v, rfl⟩ := not_forall_not.1 (mt hv hne)
      exact ⟨by simpa [servedNow] using hs, v, rfl⟩
    · obtain ⟨v, rfl⟩ := not_forall_not.1 (mt hm hne)
      exact ⟨by simpa [servedNow] using hs, v, rfl⟩
    · obtain ⟨w, rfl⟩ := not_forall_not.1 (mt hto hne)
      exact ⟨by simpa [servedNow] using hs, w, rfl⟩
  · simp
  · simp

/-! ## The host's reads and writes, and the reset state -/

/-- Settles O47: a read of `RDATA` is taken at any time. -/
theorem readDataRegister : Obligations.ReadDataRegister := by
  unfold Obligations.ReadDataRegister
  intro b s rest hin
  have hstep : stepOn b s = serveRead .rdata { s with inbox := rest } := by
    simp [stepOn, hin, servedNow, isConfigReg, serveInput]
  exact ⟨fun h => by simp [hstep, serveRead, hostRead, h], fun h => by simp [hstep, serveRead, hostRead, h]⟩

/-- Settles O48: an idle block takes the write it is offered. -/
theorem configWrite : Obligations.ConfigWrite := by
  unfold Obligations.ConfigWrite
  intro b s rest
  refine ⟨fun v h => h.step b, fun v h => h.step b, fun w h hw => ?_, fun h => h.step b⟩
  rw [h.step b]
  simp [serveInput, writeTimeout, timeoutLegal, hw]

/-- Settles O51: each value stands in the definition of the reset state. -/
theorem resetValues : Obligations.ResetValues := by
  unfold Obligations.ResetValues
  exact ⟨rfl, rfl, rfl, rfl, rfl, rfl, rfl, rfl, rfl, rfl, rfl, rfl⟩

end Sys2Proof.Machine

namespace Sys2Proof.Machine

/-! ## The vector buffer -/

/-- The reset input leaves the vector buffer, unless the action it cuts short is the start of a vector. -/
theorem resetInput_vbuf (b : Board) (cut : Nat) {s : State} (hl : ∀ src, s.todo.head? ≠ some (.load src))
    (h3 : s.todo.head? ≠ some .loadInit3) : (resetInput b cut s).vbuf = s.vbuf := by
  obtain ⟨d, es, sa, ed, po, vb, he, -, -, hvb, -⟩ := resetInput_eq b cut s
  rw [he]
  exact hvb hl h3

/-- Settles O23: of the actions only the start of a vector writes the buffer, and no input does, a block reset included. -/
theorem vectorBufferReadOnly : Obligations.VectorBufferReadOnly := by
  unfold Obligations.VectorBufferReadOnly
  intro b s t h hl h3
  obtain ⟨-, inb, -, a, rest, ht, hd⟩ | ⟨-, inb, -, -, rfl⟩ | ⟨i, rest, -, hw, -, hd⟩ | ⟨-, inb, -, rfl⟩ := stepOn_cases h
  · obtain ⟨-, -, -, -, hvb, -⟩ := doAction_keeps hd
    exact (hvb (fun src ha => hl src (by simp [ht, ha])) (fun ha => h3 (by simp [ht, ha]))).1
  · rfl
  · by_cases hr : ∃ cut, i = .reset cut
    · obtain ⟨cut, rfl⟩ := hr
      exact Host.Outcome.next.inj hd ▸ resetInput_vbuf b cut (s := { s with inbox := rest }) hl h3
    · obtain ⟨-, -, -, hvb, -⟩ := serveInput_keeps hd (fun cut hc => hr ⟨cut, hc⟩) hw
      exact hvb
  · rfl

end Sys2Proof.Machine

namespace Sys2Proof.Machine

/-! ## Decoding and encoding a vector -/

theorem encodeVector_eq_flatten (is : List Instr) : encodeVector is = (is.map encode).flatten := by
  induction is with
  | nil => rfl
  | cons i is ih => rw [encodeVector, ih, List.map_cons, List.flatten_cons]

/-- Commands put before decoded ones stand before them. -/
theorem foldr_consCommand_ok (is js : List Instr) : is.foldr consCommand (.ok js) = .ok (is ++ js) := by
  induction is with
  | nil => rfl
  | cons i is ih => rw [List.foldr_cons, ih, consCommand, List.cons_append]

theorem decodeVector_encodeVector (is : List Instr) : decodeVector (encodeVector is) = .ok is := by
  have h := decodeFrom_encodeVector is 0 []
  rw [List.append_nil, decodeFrom, foldr_consCommand_ok, List.append_nil] at h
  exact h

/-- Settles O12: decoding goes command by command, and each command's encoding decodes to it. -/
theorem decodeOfEncodeVector : Obligations.DecodeOfEncodeVector := by
  unfold Obligations.DecodeOfEncodeVector
  exact ⟨rfl, fun _ _ => ⟨rfl, rfl, rfl, rfl⟩,
    fun is => ⟨encodeVector_eq_flatten is, fun _ => decodeVector_encodeVector is⟩⟩

/-- Only an empty buffer has no first command. -/
theorem decodeOne_endOfVector {bs : List Byte} (h : decodeOne bs = .endOfVector) : bs = [] := by
  rcases bs with _ | ⟨b0, tl⟩
  · rfl
  · by_cases hb : b0 = 0x00#8
    · subst hb
      simp [decodeOne_zero] at h
    · rcases tl with _ | ⟨a, _ | ⟨v, rest⟩⟩
      · simp [decodeOne_short hb] at h
      · simp [decodeOne_short hb] at h
      · rw [decodeOne_triple hb] at h
        cases ht : decodeTriple b0 a v <;> simp [ht] at h

theorem consCommand_eq_ok {i : Instr} {d : VectorDecoded} {is : List Instr} (h : consCommand i d = .ok is) :
    ∃ js, d = .ok js ∧ is = i :: js := by
  cases d with
  | ok js => exact ⟨js, rfl, (VectorDecoded.ok.inj h).symm⟩
  | malformed n => cases h
  | illegal n b => cases h

/-- A buffer that decodes is empty, or one command's bytes and a buffer that decodes to the other commands. -/
theorem decodeFrom_ok_cases {n : Nat} {buf : List Byte} {is : List Instr} (h : decodeFrom n buf = .ok is) :
    (buf = [] ∧ is = []) ∨
    ∃ i rest js, buf = encode i ++ rest ∧ is = i :: js ∧ decodeFrom (n + instrLength i) rest = .ok js := by
  rw [decodeFrom_step] at h
  cases hd : decodeOne buf with
  | instr i rest =>
    rw [hd] at h
    obtain ⟨js, hjs, his⟩ := consCommand_eq_ok h
    exact .inr ⟨i, rest, js, decodeOne_instr hd, his, hjs⟩
  | endOfVector =>
    rw [hd] at h
    exact .inl ⟨decodeOne_endOfVector hd, (VectorDecoded.ok.inj h).symm⟩
  | malformed => rw [hd] at h; cases h
  | illegal b => rw [hd] at h; cases h

theorem encodeVector_of_decodeFrom {n : Nat} {buf : List Byte} {is : List Instr} (h : decodeFrom n buf = .ok is) :
    encodeVector is = buf := by
  induction is generalizing n buf with
  | nil =>
    obtain ⟨rfl, -⟩ | ⟨_, _, _, -, he, -⟩ := decodeFrom_ok_cases h
    · rfl
    · cases he
  | cons i is ih =>
    obtain ⟨-, he⟩ | ⟨_, rest, _, rfl, he, hr⟩ := decodeFrom_ok_cases h
    · cases he
    · obtain ⟨rfl, rfl⟩ := List.cons.inj he
      rw [encodeVector, ih hr]

/-- Settles O13: each command that decoding takes off the buffer is the encoding of that command. -/
theorem encodeOfDecodeVector : Obligations.EncodeOfDecodeVector := by
  unfold Obligations.EncodeOfDecodeVector
  exact fun _ _ h => encodeVector_of_decodeFrom h

theorem instrLength_of_ne_nop {i : Instr} (h : i ≠ .nop) : instrLength i = 3 := by
  cases i with
  | nop => exact absurd rfl h
  | wrmem | rdmem | wrreg | rdreg => rfl

theorem encodeVector_length (is : List Instr) :
    (encodeVector is).length = is.count .nop + 3 * (is.length - is.count .nop) := by
  induction is with
  | nil => rfl
  | cons i is ih =>
    have hle : is.count .nop ≤ is.length := List.count_le_length
    rw [encodeVector, List.length_append, encode_length, ih, List.length_cons]
    by_cases hi : i = .nop
    · subst hi
      rw [List.count_cons_self, instrLength]
      omega
    · rw [List.count_cons_of_ne hi, instrLength_of_ne_nop hi]
      omega

/-- Settles O14: a buffer that decodes has the length of the encoding it is. -/
theorem vectorLengthInvariant : Obligations.VectorLengthInvariant := by
  unfold Obligations.VectorLengthInvariant
  exact ⟨fun _ is h => encodeVector_of_decodeFrom h ▸ encodeVector_length is, rfl⟩

/-! ## The faults of the fetch -/

/-- Below the vector's end the fetch takes the byte at `PC` and the bytes after it, two or as many as are left. -/
theorem fetchBytes_cons {s : State} (h : s.pc < s.vlen) :
    ∃ tl, fetchBytes s = s.vbuf.read s.pc :: tl ∧ tl.length = min 2 (s.vlen - (s.pc + 1)) := by
  have hlen : (fetchBytes s).length = min 3 (s.vlen - s.pc) := by
    rw [fetchBytes_eq, List.length_take, bytesLeft_length]
  have hhead : (fetchBytes s).head? = some (s.vbuf.read s.pc) := by
    rw [fetchBytes_eq, List.head?_take, if_neg (by decide), bytesLeft, List.head?_map, List.head?_range, if_neg (by omega)]
    rfl
  obtain ⟨tl, ht⟩ := List.head?_eq_some_iff.1 hhead
  rw [ht, List.length_cons] at hlen
  exact ⟨tl, ht, by omega⟩

/-- A first byte that is none of the four wire codes starts no triple. -/
theorem decodeTriple_none {b0 : Byte} (h4 : b0 ≠ 0x04#8) (h5 : b0 ≠ 0x05#8) (h6 : b0 ≠ 0x06#8) (h7 : b0 ≠ 0x07#8)
    (a v : Byte) : decodeTriple b0 a v = none := by
  simp [decodeTriple, h4, h5, h6, h7]

/-- A turn of the loop at a truncated triple raises its fault. -/
theorem Running.step_malformed (b : Board) {s : State} {rest : List Action} (h : Running s (.run :: rest))
    (hd : decodeOne (fetchBytes s) = .malformed) : stepOn b s = .next (raise (malformedFault s.pc s.vselId) s) := by
  rw [h.step_run, runVector, hd]

/-- A turn of the loop at an illegal first byte raises its fault. -/
theorem Running.step_illegal (b : Board) {s : State} {rest : List Action} {b0 : Byte} (h : Running s (.run :: rest))
    (hd : decodeOne (fetchBytes s) = .illegal b0) : stepOn b s = .next (raise (illegalFault s.pc s.vselId) s) := by
  rw [h.step_run, runVector, hd]

/-- Settles O15: the fetch window holds the whole triple, and its first byte starts none. -/
theorem illegalFirstByte : Obligations.IllegalFirstByte := by
  unfold Obligations.IllegalFirstByte
  intro b0 h0 h4 h5 h6 h7
  have hd : ∀ a v rest, decodeOne (b0 :: a :: v :: rest) = .illegal b0 := fun a v rest => by
    rw [decodeOne_triple h0, decodeTriple_none h4 h5 h6 h7]
  refine ⟨hd, fun b s rest hr hb hlen => ?_⟩
  obtain ⟨tl, hf, htl⟩ := fetchBytes_cons (s := s) (by omega)
  obtain ⟨a, v, rfl⟩ := List.length_eq_two.1 (show tl.length = 2 by omega)
  exact hr.step_illegal b (by rw [hf, hb, hd])

theorem truncatedRaises {b0 : Byte} (h0 : b0 ≠ 0x00#8) : TruncatedRaises b0 := by
  intro b s rest hr hb hlt hshort
  obtain ⟨tl, hf, htl⟩ := fetchBytes_cons hlt
  exact hr.step_malformed b (by rw [hf, hb, decodeOne_short h0 (by omega)])

/-- Settles O16: the fetch window holds no more bytes than are left. -/
theorem truncatedTriple : Obligations.TruncatedTriple := by
  unfold Obligations.TruncatedTriple
  exact fun _ _ h0 hl => ⟨decodeOne_short h0 hl, truncatedRaises h0⟩

/-! ## The frames on the wire -/

/-- An instruction's events clock its frame from output mode, whatever follows, and leave the latch as its state has it. -/
theorem clockedFrom_instrEvents (i : Instr) (s : State) (out : Bool) (es : List LineEvent) :
    clockedFrom out true (instrEvents i s ++ es) = frameOf i ++ clockedFrom (afterInstr i s).sdataOut true es := by
  cases i with
  | nop => rw [instrEvents, clockedFrom_noOp, frameOf, afterInstr, writeNoOp_eq]; rfl
  | wrmem a v | wrreg a v => rw [instrEvents, clockedFrom_write, frameOf, afterInstr, writeOp_eq]; rfl
  | rdmem a x | rdreg a x =>
    rw [instrEvents, clockedFrom_read _ _ (readAnswers_length _ _ _), frameOf, afterInstr, readAndLog_eq]
    rfl

theorem clockedBetween_afterInstr (i : Instr) {s : State} (h : s.sdataOe = true) :
    clockedBetween s (afterInstr i s) = frameOf i := by
  have := clockedFrom_instrEvents i s s.sdataOut []
  rwa [List.append_nil, clockedFrom, List.append_nil, ← newEvents_of (afterInstr_trace i s), ← h] at this

theorem frameOf_length (i : Instr) : (frameOf i).length = 22 := by
  cases i with
  | nop => exact List.length_replicate
  | wrmem a v | wrreg a v | rdmem a x | rdreg a x => simp [frameOf, drivenSyms, msbBits_length]

/-- Settles O10: each instruction's line events clock its frame. -/
theorem frameClockedString : Obligations.FrameClockedString := by
  unfold Obligations.FrameClockedString
  exact fun i s h => ⟨afterInstr i s, exec_eq i s, afterInstr_sdataOe i h, clockedBetween_afterInstr i h, frameOf_length i⟩

/-! ## The wire codes and the table's words -/

/-- Settles O11: the codes are four constants and the no-op's. -/
theorem wireCodeStructure : Obligations.WireCodeStructure := by
  unfold Obligations.WireCodeStructure
  refine ⟨fun i => ?_, fun sp => ?_, rfl, rfl, rfl, rfl⟩
  · cases i with
    | nop => exact iff_of_true rfl rfl
    | wrmem | rdmem | wrreg | rdreg => simp [wireCode, writeCode, readCode]
  · cases sp <;> exact ⟨rfl, rfl, rfl, rfl⟩

/-- Settles O17: seven words, each decoded. -/
theorem tableWordsDecode : Obligations.TableWordsDecode := by
  unfold Obligations.TableWordsDecode
  decide

end Sys2Proof.Machine

namespace Sys2Proof.Machine

/-! ## The serializer's frames -/

/-- The clocked string from a state in output mode to one whose trace is a frame longer is the frame's. -/
theorem clockedBetween_of_frame {s t : State} {es : List LineEvent} {syms : List Sym} {out : Level}
    (hoe : s.sdataOe = true) (ht : t.trace = s.trace ++ es)
    (hc : clockedFrom s.sdataOut true (es ++ []) = syms ++ clockedFrom out true []) : clockedBetween s t = syms := by
  rw [clockedBetween, newEvents_of ht, hoe]
  rwa [List.append_nil, clockedFrom, List.append_nil] at hc

theorem writeTrailer_count : [LineEvent.d true, .p, .p, .p].count .p = 3 ∧
    [LineEvent.d true, .p, .p, .p].count (.d true) + [LineEvent.d true, .p, .p, .p].count (.d false) = 1 := by
  decide

/-- A write frame makes a pulse and a drive for each of its 19 bits, and its trailer three pulses and one drive more. -/
theorem writeEvents_count (opc : Opc) (a v : Byte) : (writeEvents opc a v).count .p = 22 ∧
    (writeEvents opc a v).count (.d true) + (writeEvents opc a v).count (.d false) = 20 := by
  obtain ⟨hp, hd⟩ := bitEvents_count (msbBits opc ++ msbBits a ++ msbBits v)
  obtain ⟨tp, td⟩ := writeTrailer_count
  rw [List.length_append, List.length_append, msbBits_length, msbBits_length, msbBits_length] at hp hd
  simp only [writeEvents, List.count_append]
  omega

/-- Settles O1: the frame is the bits of its three fields and a trailer of ones. -/
theorem writeOpResult : Obligations.WriteOpResult := by
  unfold Obligations.WriteOpResult
  intro opc a v s
  obtain ⟨hp, hd⟩ := writeEvents_count opc a v
  exact ⟨writeOp_eq opc a v s, hp, hd, fun h =>
    clockedBetween_of_frame h (by rw [writeOp_eq]) (clockedFrom_write opc a v s.sdataOut [])⟩

/-- Settles O3: the latch is low under each of the 22 pulses. -/
theorem writeNoOpResult : Obligations.WriteNoOpResult := by
  unfold Obligations.WriteNoOpResult
  exact fun s => ⟨writeNoOp_eq s, fun h =>
    clockedBetween_of_frame h (by rw [writeNoOp_eq]) (clockedFrom_noOp s.sdataOut [])⟩

/-! ## The byte a read assembles -/

/-- Shifting a bit in doubles the byte and adds the bit, modulo 256 (R129). -/
theorem shiftIn_toNat (r : Byte) (b : Level) : (shiftIn r b).toNat = (2 * r.toNat + b.toNat) % 256 := by
  have hlow : ((r <<< 1) &&& (BitVec.ofBool b).zeroExtend 8) = 0#8 := by
    ext i hi
    cases i <;> simp [BitVec.getElem_shiftLeft]
  rw [shiftIn, ← BitVec.add_eq_or_of_and_eq_zero _ _ hlow]
  cases b <;> simp [BitVec.toNat_add, Nat.shiftLeft_eq] <;> omega

/-- Eight samples assemble to the number they are in binary, the first one highest. -/
theorem assembleByte_toNat (b7 b6 b5 b4 b3 b2 b1 b0 : Level) :
    (assembleByte [b7, b6, b5, b4, b3, b2, b1, b0]).toNat =
      128 * b7.toNat + 64 * b6.toNat + 32 * b5.toNat + 16 * b4.toNat + 8 * b3.toNat + 4 * b2.toNat + 2 * b1.toNat +
        b0.toNat := by
  have h7 := b7.toNat_lt; have h6 := b6.toNat_lt; have h5 := b5.toNat_lt; have h4 := b4.toNat_lt
  have h3 := b3.toNat_lt; have h2 := b2.toNat_lt; have h1 := b1.toNat_lt; have h0 := b0.toNat_lt
  simp only [assembleByte, List.foldl, shiftIn_toNat, BitVec.toNat_ofNat]
  omega

/-- The answers to `n` samples begin with the scripted ones. -/
theorem take_samples_prefix (n : Nat) (s : State) : s.samples.take n <+: sampleAnswers n s := by
  induction n generalizing s with
  | zero => exact List.nil_prefix
  | succ n ih =>
    rcases hs : s.samples with _ | ⟨b, bs⟩
    · exact List.nil_prefix
    · have hb : targetAnswer s = b := by simp [targetAnswer, hs]
      have ht : (pulse (sample s).2).samples = bs := by simp [sample, pulse, setSclk, emit, hs]
      rw [List.take_succ_cons, sampleAnswers, hb, List.cons_prefix_cons]
      exact ⟨rfl, ht ▸ ih _⟩

theorem take_samples_prefix_readAnswers (opc : Opc) (a : Byte) (s : State) :
    s.samples.take 8 <+: readAnswers opc a s := by
  have hs : (readStart opc a s).samples = s.samples := by rw [readStart_eq]
  exact hs ▸ take_samples_prefix 8 (readStart opc a s)

theorem readAnswers_eq_eight (opc : Opc) (a : Byte) (s : State) :
    ∃ b7 b6 b5 b4 b3 b2 b1 b0, readAnswers opc a s = [b7, b6, b5, b4, b3, b2, b1, b0] :=
  ⟨_, _, _, _, _, _, _, _, rfl⟩

/-- Settles O2: the eight answers are those of the frame's sampling loop. -/
theorem readOpResult : Obligations.ReadOpResult := by
  unfold Obligations.ReadOpResult
  intro opc a s
  obtain ⟨b7, b6, b5, b4, b3, b2, b1, b0, hb⟩ := readAnswers_eq_eight opc a s
  have he := readOp_eq opc a s
  have hpre := take_samples_prefix_readAnswers opc a s
  rw [hb] at he hpre
  rw [he]
  exact ⟨b7, b6, b5, b4, b3, b2, b1, b0, hpre, assembleByte_toNat .., rfl, fun h =>
    clockedBetween_of_frame h rfl (clockedFrom_read opc a rfl s.sdataOut [])⟩

/-! ## The entry condition of the serializer -/

/-- The actions that clock frames of the serializer. -/
def Action.clocksFrame : Action → Bool
  | .run | .wrop .. | .rdop .. => true
  | _ => false

theorem frame_of_sequenced {v : SeqView} {a : Action} {rest : List Action} (ha : a.clocksFrame = true)
    (h : sequenced v (a :: rest) = true) : v.frame = true := by
  cases a with
  | run | wrop | rdop => simp_all [sequenced]
  | _ => simp [Action.clocksFrame] at ha

/-- With the timer idle the clock is low (R22). -/
theorem Inv.sclk_low {b : Board} {s : State} (hi : Inv b s) (ht : s.tmr = .idle) : s.sclk = false := by
  rw [hi.clock, ht]
  rfl

/-- A running command whose next action clocks a frame has the pins as the frame needs them. -/
theorem Inv.frame_entry {b : Board} {s : State} {a : Action} {rest : List Action} (hi : Inv b s) (hb : s.busy = true)
    (ht : s.todo = a :: rest) (ha : a.clocksFrame = true) : s.sdataOe = true ∧ s.sclk = false := by
  have hq : sequenced (seqView s) (a :: rest) = true := ht ▸ (hi.busy hb).order
  obtain ⟨htm, -, hoe, -⟩ := seqView_frame.1 (frame_of_sequenced ha hq)
  exact ⟨hoe, hi.sclk_low htm⟩

/-- Settles O55: an idle block rests in output mode, and the order of a command's actions puts frames there. -/
theorem serializerEntryCondition : Obligations.SerializerEntryCondition := by
  unfold Obligations.SerializerEntryCondition
  intro b s hi
  exact ⟨fun hb hv => ⟨((hi.idle hb).rest hv).1, hi.sclk_low (hi.idle hb).tmr⟩,
    fun _ hb ht => hi.frame_entry hb ht rfl, fun _ _ _ _ hb ht => hi.frame_entry hb ht rfl,
    fun _ _ _ hb ht => hi.frame_entry hb ht rfl⟩

/-! ## The invariant at reset -/

theorem inv_reset (b : Board) : Inv b State.reset where
  memory := rfl
  width := ⟨Nat.two_pow_pos _, Nat.two_pow_pos _, Nat.two_pow_pos _⟩
  timeout := rfl
  fault := rfl
  clock := rfl
  busy h := Bool.noConfusion h
  idle _ := ⟨rfl, rfl, rfl, rfl, fun _ => ⟨rfl, .inl rfl⟩⟩

/-- Settles O53: each part of the invariant is a reset value's. -/
theorem resetMeetsInv : Obligations.ResetMeetsInv := by
  unfold Obligations.ResetMeetsInv
  exact inv_reset

end Sys2Proof.Machine

namespace Sys2Proof.Machine

/-! ## Running a list of instructions -/

/-- What a list of instructions leaves: `execAll` always answers a next state. -/
def afterAll : List Instr → State → State
  | [], s => s
  | i :: is, s => afterAll is (afterInstr i s)

theorem execAll_eq (is : List Instr) (s : State) : execAll is s = .next (afterAll is s) := by
  induction is generalizing s with
  | nil => rfl
  | cons i is ih => rw [execAll, exec_eq]; exact ih (afterInstr i s)

theorem afterAll_vlen (is : List Instr) (s : State) : (afterAll is s).vlen = s.vlen := by
  induction is generalizing s with
  | nil => rfl
  | cons i is ih =>
    obtain ⟨-, hvl, -⟩ := afterInstr_keeps i s
    rw [afterAll, ih, hvl]

theorem afterAll_vselId (is : List Instr) (s : State) : (afterAll is s).vselId = s.vselId := by
  induction is generalizing s with
  | nil => rfl
  | cons i is ih =>
    obtain ⟨-, -, hvs, -⟩ := afterInstr_keeps i s
    rw [afterAll, ih, hvs]

theorem afterAll_pc (is : List Instr) (s : State) : (afterAll is s).pc = s.pc + (encodeVector is).length := by
  induction is generalizing s with
  | nil => rfl
  | cons i is ih =>
    rw [afterAll, ih, afterInstr_pc, encodeVector, List.length_append, encode_length, Nat.add_assoc]

/-- The line events of a list of instructions from a state. -/
def vectorEvents : List Instr → State → List LineEvent
  | [], _ => []
  | i :: is, s => instrEvents i s ++ vectorEvents is (afterInstr i s)

theorem afterAll_trace (is : List Instr) (s : State) : (afterAll is s).trace = s.trace ++ vectorEvents is s := by
  induction is generalizing s with
  | nil => exact (List.append_nil _).symm
  | cons i is ih => rw [afterAll, ih, afterInstr_trace, vectorEvents, List.append_assoc]

/-! ## The five instructions -/

/-- From output mode an instruction answers a state to which its frame was clocked. -/
theorem exec_clocks (i : Instr) {s : State} (h : s.sdataOe = true) :
    ∃ t, exec i s = .next t ∧ clockedBetween s t = frameOf i :=
  ⟨afterInstr i s, exec_eq i s, clockedBetween_afterInstr i h⟩

theorem advance_writeOp (n : Nat) (opc : Opc) (a v : Byte) (s : State) :
    advance n (writeOp opc a v s) = { s with
      sclk := false, sdataOut := true, pc := s.pc + n, trace := s.trace ++ writeEvents opc a v } := by
  rw [writeOp_eq]
  rfl

theorem advance_readAndLog (n : Nat) (opc : Opc) (a : Byte) (s : State) :
    advance n (readAndLog opc a s) = { s with
      sclk := false, sdataOe := true, sdataOut := a.getLsbD 0
      rdata := assembleByte (readAnswers opc a s), rdvalid := true
      rdlog := s.rdlog ++ [ReadRec.mk opc a (assembleByte (readAnswers opc a s))]
      samples := s.samples.drop 8
      pc := s.pc + n
      trace := s.trace ++ readEvents opc a (readAnswers opc a s) } := by
  rw [readAndLog_eq]
  rfl

/-- Settles O4: a no-op's state is that of `writeNoOp` with `PC` one more. -/
theorem nopResult : Obligations.NopResult := by
  unfold Obligations.NopResult
  refine ⟨decodeOne_zero, decodeOne_encode (.wrmem 0x00#8 0x00#8), fun s => ⟨?_, exec_clocks .nop⟩⟩
  rw [exec_eq, afterInstr, writeNoOp_eq]
  rfl

/-- Settles O5: the state is that of `writeOp` with `PC` three more. -/
theorem wrmemResult : Obligations.WrmemResult := by
  unfold Obligations.WrmemResult
  exact ⟨fun a v => decodeOne_encode (.wrmem a v), truncatedRaises (by decide),
    fun a v s => ⟨congrArg Host.Outcome.next (advance_writeOp 3 _ a v s), exec_clocks (.wrmem a v)⟩⟩

/-- Settles O6: the state is that of `writeOp` with `PC` three more. -/
theorem wrregResult : Obligations.WrregResult := by
  unfold Obligations.WrregResult
  exact ⟨fun a v => decodeOne_encode (.wrreg a v), truncatedRaises (by decide),
    fun a v s => ⟨congrArg Host.Outcome.next (advance_writeOp 3 _ a v s), exec_clocks (.wrreg a v)⟩⟩

/-- Settles O7: the state is that of the logged read with `PC` three more; the answers do not depend on byte 2. -/
theorem rdmemResult : Obligations.RdmemResult := by
  unfold Obligations.RdmemResult
  exact ⟨fun a x => decodeOne_encode (.rdmem a x), truncatedRaises (by decide), fun a s =>
    ⟨_, readAnswers_length 0b101#3 a s, take_samples_prefix_readAnswers _ a s,
      fun x => ⟨congrArg Host.Outcome.next (advance_readAndLog 3 _ a s), exec_clocks (.rdmem a x)⟩⟩⟩

/-- Settles O8: the state is that of the logged read with `PC` three more; the answers do not depend on byte 2. -/
theorem rdregResult : Obligations.RdregResult := by
  unfold Obligations.RdregResult
  exact ⟨fun a x => decodeOne_encode (.rdreg a x), truncatedRaises (by decide), fun a s =>
    ⟨_, readAnswers_length 0b111#3 a s, take_samples_prefix_readAnswers _ a s,
      fun x => ⟨congrArg Host.Outcome.next (advance_readAndLog 3 _ a s), exec_clocks (.rdreg a x)⟩⟩⟩

/-! ## The pulses and samples of a vector -/

theorem samplesIn_writeEvents (opc : Opc) (a v : Byte) : samplesIn (writeEvents opc a v) = [] := by
  rw [writeEvents, samplesIn_append, samplesIn_bitEvents]
  rfl

/-- The samples of a read frame are its answers. -/
theorem samplesIn_readEvents (opc : Opc) (a : Byte) (bits : List Level) :
    samplesIn (readEvents opc a bits) = bits := by
  obtain ⟨hs, -⟩ := sampleEvents_counts bits
  rw [readEvents, samplesIn_append, samplesIn_append, samplesIn_append, samplesIn_bitEvents, hs]
  exact List.append_nil bits

/-- A read frame makes a pulse for each of its 11 bits, two to prime, one for each sample and one at the end. -/
theorem pulseCount_readEvents (opc : Opc) (a : Byte) {bits : List Level} (h : bits.length = 8) :
    pulseCount (readEvents opc a bits) = 22 := by
  obtain ⟨hb, -⟩ := bitEvents_count (msbBits opc ++ msbBits a)
  obtain ⟨-, hs⟩ := sampleEvents_counts bits
  rw [List.length_append, msbBits_length, msbBits_length] at hb
  rw [pulseCount, readEvents, List.count_append, List.count_append, List.count_append, hb, hs, h]
  rfl

theorem pulseCount_instrEvents (i : Instr) (s : State) : pulseCount (instrEvents i s) = 22 := by
  cases i with
  | nop => rfl
  | wrmem a v | wrreg a v => exact (writeEvents_count _ a v).1
  | rdmem a x | rdreg a x => exact pulseCount_readEvents _ a (readAnswers_length _ a s)

/-- An instruction takes eight samples if it is a read, and none else. -/
theorem samplesIn_instrEvents_length (i : Instr) (s : State) :
    (samplesIn (instrEvents i s)).length = 8 * readCount [i] := by
  cases i with
  | nop => rfl
  | wrmem a v | wrreg a v => rw [instrEvents, samplesIn_writeEvents]; rfl
  | rdmem a x | rdreg a x => rw [instrEvents, samplesIn_readEvents, readAnswers_length]; rfl

theorem readCount_cons (i : Instr) (is : List Instr) : readCount (i :: is) = readCount [i] + readCount is := by
  cases i with
  | nop | wrmem | wrreg => exact (Nat.zero_add _).symm
  | rdmem | rdreg => exact Nat.add_comm _ _

theorem pulseCount_vectorEvents (is : List Instr) (s : State) : pulseCount (vectorEvents is s) = 22 * is.length := by
  induction is generalizing s with
  | nil => rfl
  | cons i is ih =>
    have hi := pulseCount_instrEvents i s
    have his := ih (afterInstr i s)
    unfold pulseCount at hi his ⊢
    rw [vectorEvents, List.count_append, hi, his, List.length_cons]
    omega

theorem samplesIn_vectorEvents_length (is : List Instr) (s : State) :
    (samplesIn (vectorEvents is s)).length = 8 * readCount is := by
  induction is generalizing s with
  | nil => rfl
  | cons i is ih =>
    rw [vectorEvents, samplesIn_append, List.length_append, samplesIn_instrEvents_length, ih, readCount_cons i is]
    omega

theorem clockedFrom_vectorEvents (is : List Instr) (s : State) :
    clockedFrom s.sdataOut true (vectorEvents is s) = framesOf is := by
  induction is generalizing s with
  | nil => rfl
  | cons i is ih => rw [vectorEvents, clockedFrom_instrEvents, ih, framesOf]

/-- Settles O22: the vector's events are those of its instructions, one after the other. -/
theorem vectorPulseLaw : Obligations.VectorPulseLaw := by
  unfold Obligations.VectorPulseLaw
  intro is s
  have ht := afterAll_trace is s
  refine ⟨afterAll is s, execAll_eq is s, ⟨_, ht.symm⟩, ?_⟩
  rw [clockedBetween, newEvents_of ht]
  exact ⟨pulseCount_vectorEvents is s, samplesIn_vectorEvents_length is s, fun h => h ▸ clockedFrom_vectorEvents is s⟩

/-! ## A turn of the interpreter's loop -/

/-- The fetch window tells the first command of the bytes that are left. -/
theorem runVector_instr {s : State} {i : Instr} {tl : List Byte} (rest : List Action)
    (h : decodeOne (bytesLeft s) = .instr i tl) : runVector rest s = exec i s := by
  obtain ⟨r, hr⟩ := decodeOne_take_three h
  rw [runVector, fetchBytes_eq, hr]

theorem Running.step_instr (b : Board) {s : State} {rest : List Action} {i : Instr} {tl : List Byte}
    (h : Running s (.run :: rest)) (hd : decodeOne (bytesLeft s) = .instr i tl) : stepOn b s = exec i s := by
  rw [h.step_run, runVector_instr rest hd]

/-- Settles O18: a running block's step is a turn of the loop, and so is one that takes a `wait`. -/
theorem stepRunsDecodedInstruction : Obligations.StepRunsDecodedInstruction := by
  unfold Obligations.StepRunsDecodedInstruction
  refine ⟨fun b s rest i tl h hd => h.step_instr b hd, fun s rest i tl h hd => h.step_instr Config.board hd,
    fun b s rest inb i tl hb ht hin hd => ?_⟩
  rw [stepOn_wait b hin, runOwn, if_pos hb, runAction_run b (s := { s with inbox := inb }) ht]
  exact runVector_instr (s := { s with inbox := inb }) rest hd

theorem bytesLeft_nil {s : State} (h : s.vlen ≤ s.pc) : bytesLeft s = [] :=
  List.eq_nil_of_length_eq_zero (by rw [bytesLeft_length]; omega)

theorem Running.step_end (b : Board) {s : State} {rest : List Action} (h : Running s (.run :: rest))
    (hd : s.vlen ≤ s.pc) : stepOn b s = .next { s with todo := rest } := by
  rw [h.step_run, runVector, fetchBytes_eq, bytesLeft_nil hd]
  rfl

/-- Settles O19: no byte is left at `PC = VLEN`. -/
theorem runCompletesAtEnd : Obligations.RunCompletesAtEnd := by
  unfold Obligations.RunCompletesAtEnd
  exact fun b s rest h hpc => h.step_end b hpc.ge

/-! ## The start of a run -/

theorem startExec_of_lt {b : Board} {src : VecSrc} (h : (srcBytes b src).length < 2 ^ b.pcw) (s : State) :
    startExec b src s = .next (loadVector (srcSel src) (srcBytes b src) s) := if_pos h

theorem bytesLeft_loadVector (sel : VecSel) (buf : List Byte) (s : State) : bytesLeft (loadVector sel buf s) = buf :=
  bytesLeft_ofBytes _ buf rfl rfl

/-- The loop of a run stands directly after its start. -/
theorem run_of_sequenced_load {v : SeqView} {src : VecSrc} {rest : List Action}
    (h : sequenced v (.load src :: rest) = true) : ∃ after, rest = .run :: after := by
  simp only [sequenced, Bool.and_eq_true, beq_iff_eq] at h
  obtain ⟨⟨-, hrun⟩, -⟩ := h
  exact List.head?_eq_some_iff.1 hrun

/-- Settles O20: the step loads the vector, and the order of a command's actions puts the loop next. -/
theorem execStartLoadsVector : Obligations.ExecStartLoadsVector := by
  unfold Obligations.ExecStartLoadsVector
  intro b s rest src h hlen
  refine ⟨⟨_, (h.step b).trans (startExec_of_lt hlen _), bytesLeft_loadVector _ _ _, Memory.read_ofBytes _,
    Memory.ofBytes_wf _, rfl⟩, fun hi => ?_⟩
  exact run_of_sequenced_load (h.todo ▸ (hi.busy h.busy).order)

/-! ## The loop and the decoder agree -/

/-- Every buffer is the encoding of some commands, then bytes whose head is no command. -/
theorem exists_encodeVector_append (buf : List Byte) :
    ∃ is tl, buf = encodeVector is ++ tl ∧ ∀ i rest, decodeOne tl ≠ .instr i rest := by
  by_cases h : ∃ i rest, decodeOne buf = .instr i rest
  · obtain ⟨i, rest, hi⟩ := h
    have hbuf := decodeOne_instr hi
    obtain ⟨is, tl, rfl, htl⟩ := exists_encodeVector_append rest
    exact ⟨i :: is, tl, by rw [hbuf, encodeVector, List.append_assoc], htl⟩
  · exact ⟨[], buf, rfl, fun i rest hi => h ⟨i, rest, hi⟩⟩
termination_by buf.length
decreasing_by
  have := instrLength_pos i
  rw [hbuf, List.length_append, encode_length]
  omega

theorem foldr_consCommand_malformed (is : List Instr) (n : Nat) :
    is.foldr consCommand (.malformed n) = .malformed n := by
  induction is with
  | nil => rfl
  | cons i is ih => rw [List.foldr_cons, ih, consCommand]

theorem foldr_consCommand_illegal (is : List Instr) (n : Nat) (c : Byte) :
    is.foldr consCommand (.illegal n c) = .illegal n c := by
  induction is with
  | nil => rfl
  | cons i is ih => rw [List.foldr_cons, ih, consCommand]

/-- Everything decoding can find: the buffer's commands and nothing after them, or an error at the first byte after the
commands before it. -/
theorem decodeVector_cases (buf : List Byte) : ∃ is tl, buf = encodeVector is ++ tl ∧
    ((decodeVector buf = .ok is ∧ tl = []) ∨
    (decodeVector buf = .malformed (encodeVector is).length ∧ decodeOne tl = .malformed) ∨
    ∃ c, decodeVector buf = .illegal (encodeVector is).length c ∧ decodeOne tl = .illegal c) := by
  obtain ⟨is, tl, rfl, htl⟩ := exists_encodeVector_append buf
  have h := decodeFrom_encodeVector is 0 tl
  rw [Nat.zero_add, decodeFrom_step _ tl] at h
  refine ⟨is, tl, rfl, ?_⟩
  cases hd : decodeOne tl with
  | instr i rest => exact absurd hd (htl i rest)
  | endOfVector =>
    rw [hd, foldr_consCommand_ok, List.append_nil] at h
    exact .inl ⟨h, decodeOne_endOfVector hd⟩
  | malformed =>
    rw [hd, foldr_consCommand_malformed] at h
    exact .inr (.inl ⟨h, rfl⟩)
  | illegal c =>
    rw [hd, foldr_consCommand_illegal] at h
    exact .inr (.inr ⟨c, h, rfl⟩)

/-- `PC` moved on by `k` in the same vector leaves `k` bytes less. -/
theorem bytesLeft_drop {s t : State} {k : Nat} (hvb : t.vbuf = s.vbuf) (hvl : t.vlen = s.vlen) (hpc : t.pc = s.pc + k) :
    bytesLeft t = (bytesLeft s).drop k := by
  apply List.ext_getElem
  · rw [List.length_drop, bytesLeft_length, bytesLeft_length, hvl, hpc]
    omega
  · intro j _ _
    simp [bytesLeft, hvb, hpc, Nat.add_assoc]

theorem bytesLeft_afterInstr {i : Instr} {s : State} {tl : List Byte} (h : bytesLeft s = encode i ++ tl) :
    bytesLeft (afterInstr i s) = tl := by
  obtain ⟨hvb, hvl, -⟩ := afterInstr_keeps i s
  rw [bytesLeft_drop hvb hvl (afterInstr_pc i s), h, ← encode_length, List.drop_left]

theorem running_afterInstr (i : Instr) {s : State} {todo : List Action} (h : Running s todo) :
    Running (afterInstr i s) todo := by
  obtain ⟨-, -, -, -, hb, -, -, -, -, -, -, -, -, htd, -, hin, -⟩ := afterInstr_keeps i s
  exact h.of hb hin (htd.trans h.todo)

/-- The loop runs the commands at the head of the bytes that are left, a step each, and then stands at those after them. -/
theorem Running.runs_commands (b : Board) {is : List Instr} {tl : List Byte} {s : State} {rest : List Action}
    (h : Running s (.run :: rest)) (hb : bytesLeft s = encodeVector is ++ tl) :
    Running (afterAll is s) (.run :: rest) ∧ bytesLeft (afterAll is s) = tl ∧
      ∀ n, runOn b (is.length + n) s = runOn b n (afterAll is s) := by
  induction is generalizing s with
  | nil => exact ⟨h, hb, fun n => by rw [List.length_nil, Nat.zero_add]; rfl⟩
  | cons i is ih =>
    rw [encodeVector, List.append_assoc] at hb
    have hstep : stepOn b s = .next (afterInstr i s) := by
      rw [h.step_instr b (hb ▸ decodeOne_encode i _), exec_eq]
    obtain ⟨hrun, hleft, hgo⟩ := ih (running_afterInstr i h) (bytesLeft_afterInstr hb)
    refine ⟨hrun, hleft, fun n => ?_⟩
    rw [List.length_cons, Nat.add_right_comm, runOn_next hstep]
    exact hgo n

/-- The commands at the head of the bytes that are left, a step each, and a step from the state they leave. -/
theorem Running.runs_commands_then {b : Board} {is : List Instr} {tl : List Byte} {s t : State} {rest : List Action}
    (h : Running s (.run :: rest)) (hb : bytesLeft s = encodeVector is ++ tl)
    (ht : stepOn b (afterAll is s) = .next t) : runOn b (is.length + 1) s = .next t := by
  obtain ⟨-, -, hgo⟩ := h.runs_commands b hb
  rw [hgo, runOn_next ht]
  rfl

theorem decodeOne_fetchBytes_malformed {s : State} (h : decodeOne (bytesLeft s) = .malformed) :
    decodeOne (fetchBytes s) = .malformed := by
  obtain ⟨b0, tl, hb, -, hl⟩ := decodeOne_malformed h
  rw [fetchBytes_eq, List.take_of_length_le, h]
  rw [hb, List.length_cons]
  omega

theorem decodeOne_fetchBytes_illegal {s : State} {c : Byte} (h : decodeOne (bytesLeft s) = .illegal c) :
    decodeOne (fetchBytes s) = .illegal c := by
  obtain ⟨a, v, rest, hb, h0, ht⟩ := decodeOne_illegal h
  rw [fetchBytes_eq, hb, List.take_succ_cons, List.take_succ_cons, List.take_succ_cons, decodeOne_triple h0, ht]

/-- Settles O21: the loop runs the commands before the decoder's end or error, and its next turn finds the same. -/
theorem execAgreesWithDecode : Obligations.ExecAgreesWithDecode := by
  unfold Obligations.ExecAgreesWithDecode
  intro b s rest buf h hvb hvl hpc
  obtain ⟨is, tl, hbuf, hcases⟩ := decodeVector_cases buf
  have hleft : bytesLeft s = encodeVector is ++ tl := by
    rw [bytesLeft_ofBytes s buf hvb hvl, hpc, List.drop_zero, hbuf]
  have htpc : (afterAll is s).pc = (encodeVector is).length := by rw [afterAll_pc, hpc, Nat.zero_add]
  have htake : encodeVector is = buf.take (encodeVector is).length := by rw [hbuf, List.take_left]
  obtain ⟨hrun, htl, -⟩ := h.runs_commands b hleft
  obtain ⟨hd, rfl⟩ | ⟨hd, hm⟩ | ⟨c, hd, hc⟩ := hcases
  · have hend : (afterAll is s).pc = (afterAll is s).vlen := by
      rw [htpc, afterAll_vlen, hvl, hbuf, List.append_nil]
    refine ⟨fun js hjs => ?_, fun n hn => (nomatch hd.symm.trans hn), fun n c hn => (nomatch hd.symm.trans hn)⟩
    obtain rfl := VectorDecoded.ok.inj (hd.symm.trans hjs)
    exact ⟨_, execAll_eq is s, h.runs_commands_then hleft (hrun.step_end b hend.ge), hend⟩
  · have hstep := hrun.step_malformed b (decodeOne_fetchBytes_malformed (htl ▸ hm))
    rw [htpc, afterAll_vselId] at hstep
    refine ⟨fun js hjs => (nomatch hd.symm.trans hjs), fun n hn => ?_, fun n c hn => (nomatch hd.symm.trans hn)⟩
    obtain rfl := VectorDecoded.malformed.inj (hd.symm.trans hn)
    exact ⟨is, _, htake, execAll_eq is s, htpc, h.runs_commands_then hleft hstep⟩
  · have hstep := hrun.step_illegal b (decodeOne_fetchBytes_illegal (htl ▸ hc))
    rw [htpc, afterAll_vselId] at hstep
    refine ⟨fun js hjs => (nomatch hd.symm.trans hjs), fun n hn => (nomatch hd.symm.trans hn), fun n c' hn => ?_⟩
    obtain ⟨rfl, rfl⟩ := VectorDecoded.illegal.inj (hd.symm.trans hn)
    obtain ⟨a, v, tl', rfl, -⟩ := decodeOne_illegal hc
    exact ⟨is, _, htake, execAll_eq is s, htpc, by simp [hbuf], h.runs_commands_then hleft hstep⟩

end Sys2Proof.Machine

namespace Sys2Proof.Machine

/-! ## The end of a measurement window -/

/-- A level first seen at `t` ends a window of `T` microseconds `Ok` inside it, and at its end if the answer says so. -/
theorem windowResult_some (T t : Nat) (tie : Bool) : windowResult T { first := some t, tieOk := tie } =
    if t < T ∨ (t = T ∧ tie = true) then .ok t else .timeout := by
  by_cases ht : t < T <;> simp [windowResult, ht]

/-- Settles O27: the level is first seen inside the window, at its end or after it, or not at all. -/
theorem windowResultRule : Obligations.WindowResultRule := by
  unfold Obligations.WindowResultRule
  refine ⟨fun T t tie h => ?_, fun T t tie h => ?_, fun T tie => rfl, fun T => ⟨?_, ?_⟩, fun T e h t ht => ?_,
    fun T e h => by rw [h]; rfl⟩
  · rw [windowResult_some, if_pos (.inl h)]
  · rw [windowResult_some, if_neg (by omega)]
  · rw [windowResult_some, if_pos (.inr ⟨rfl, rfl⟩)]
  · rw [windowResult_some, if_neg (by simp)]
  · obtain ⟨first, tie⟩ := e
    obtain rfl : first = some t := ht
    by_contra hlt
    rw [windowResult_some, if_pos (.inl (by omega))] at h
    cases h

/-! ## The timer's pulse -/

theorem timerExpiry_armedHigh {s : State} (h : s.tmr = .armedHigh) :
    timerExpiry s = { s with tmr := .armedLow, sclk := true } := by
  simp [timerExpiry, h, setSclk]

theorem timerExpiry_armedLow {s : State} (h : s.tmr = .armedLow) :
    timerExpiry s = { s with tmr := .idle, sclk := false, trace := s.trace ++ [.p] } := by
  simp [timerExpiry, h, setSclk, emit]

/-- The first expiry of an armed timer drives SCLK high and re-arms it. -/
theorem Running.timer_rises (b : Board) {s : State} {rest : List Action} (h : Running s (.timer :: rest))
    (ht : s.tmr = .armedHigh) : runOn b 1 s = .next { s with todo := rest, tmr := .armedLow, sclk := true } ∧
      Running { s with todo := rest, tmr := .armedLow, sclk := true } rest := by
  have hd : doAction b .timer { s with todo := rest } = .next { s with todo := rest, tmr := .armedLow, sclk := true } :=
    congrArg Host.Outcome.next (timerExpiry_armedHigh (s := { s with todo := rest }) ht)
  obtain ⟨hr, hgo⟩ := h.go b hd rfl rfl rfl
  exact ⟨hgo 0, hr⟩

/-- The two expiries of an armed timer make one pulse. -/
theorem Running.timer_pulses (b : Board) {s : State} {rest : List Action} (h : Running s (.timer :: .timer :: rest))
    (ht : s.tmr = .armedHigh) :
    runOn b 2 s = .next { s with todo := rest, tmr := .idle, sclk := false, trace := s.trace ++ [.p] } ∧
      Running { s with todo := rest, tmr := .idle, sclk := false, trace := s.trace ++ [.p] } rest := by
  obtain ⟨hrise, hr⟩ := h.timer_rises b ht
  obtain ⟨hr2, hgo⟩ := hr.go b (congrArg Host.Outcome.next (timerExpiry_armedLow rfl)) rfl rfl rfl
  exact ⟨(runOn_add 1 1 hrise).trans (hgo 0), hr2⟩

/-! ## Wait-and-poll, window by window -/

/-- What wait-and-poll does after its fall window has ended `Ok`, and `rest` after it. -/
def flushing (rest : List Action) : List Action := .stopPoll :: .drive false :: .dirOut :: .pulses 40 :: rest

/-- How the rise window of a wait-and-poll that starts in `s` will end. -/
def riseResult (s : State) : MeasResult := measureResult true (dirIn s)

theorem riseResult_script {s : State} {e : EdgeAnswer} {es : List EdgeAnswer} (h : s.edges = e :: es) :
    riseResult s = windowResult (timeoutUs s) e := measureResult_script (s := dirIn s) h

/-- `s` after the first three actions of wait-and-poll: the rise window is open and the timer is armed. -/
def riseOpened (rest : List Action) (s : State) : State := { s with
  sdataOe := false, tmr := .armedHigh, mcnt := some 0, edges := s.edges.tail
  todo := .timer :: .timer :: .riseEnd (riseResult s) :: flushing rest
  trace := s.trace ++ [.dir false] ++ [.m true (riseResult s)] }

theorem Running.opens_rise (b : Board) {s : State} {rest : List Action} (h : Running s (waitAndPoll ++ rest)) :
    runOn b 3 s = .next (riseOpened rest s) ∧
      Running (riseOpened rest s) (.timer :: .timer :: .riseEnd (riseResult s) :: flushing rest) := by
  obtain ⟨h1, g1⟩ := h.go b rfl rfl rfl rfl
  obtain ⟨h2, g2⟩ := h1.go b rfl rfl rfl rfl
  obtain ⟨h3, g3⟩ := h2.go b (t := riseOpened rest s) rfl rfl rfl rfl
  exact ⟨(g1 2).trans ((g2 1).trans (g3 0)), h3⟩

/-- Settles O29: the third action opens the rise window, and the timer's two expiries follow it. -/
theorem riseWindowOpensFirst : Obligations.RiseWindowOpensFirst := by
  unfold Obligations.RiseWindowOpensFirst
  intro b s rest h
  obtain ⟨hopen, hr⟩ := h.opens_rise b
  exact ⟨_, riseResult s, hopen, rfl, rfl, rfl, List.append_assoc .., rfl,
    ⟨_, (hr.timer_rises b rfl).1, rfl, rfl, rfl⟩, _, (hr.timer_pulses b rfl).1, rfl, rfl, rfl⟩

/-! ## The ends of the two windows -/

/-- The poll pulses of a window that starts with SCLK low leave it low. -/
theorem pollPulses_of_low (bound done : Nat) {s : State} (h : s.sclk = false) :
    pollPulses bound done s = { s with
      polls := s.polls.tail, trace := s.trace ++ List.replicate (morePolls bound done s) .p } := by
  simp [pollPulses_eq, h]

/-- `s` with the rise window open, after the timer's pulse; `todo` is left to do. -/
def risePulsed (r : MeasResult) (todo : List Action) (s : State) : State := { s with
  sdataOe := false, sclk := false, tmr := .idle, mcnt := some 0, edges := s.edges.tail, todo := todo
  trace := s.trace ++ [.dir false] ++ [.m true r] ++ [.p] }

theorem Running.reaches_riseEnd (b : Board) {s : State} {rest : List Action} {e : EdgeAnswer} {es : List EdgeAnswer}
    {r : MeasResult} (h : Running s (waitAndPoll ++ rest)) (he : s.edges = e :: es)
    (hr : windowResult (timeoutUs s) e = r) :
    runOn b 5 s = .next (risePulsed r (.riseEnd r :: flushing rest) s) ∧
      Running (risePulsed r (.riseEnd r :: flushing rest) s) (.riseEnd r :: flushing rest) := by
  obtain ⟨hopen, h3⟩ := h.opens_rise b
  obtain ⟨hpulse, h5⟩ := h3.timer_pulses b rfl
  obtain rfl : riseResult s = r := (riseResult_script he).trans hr
  exact ⟨(runOn_add 3 2 hopen).trans hpulse, h5⟩

/-- The rise phase's pulses: the timer's and those drawn for the rest of the window. -/
theorem risePulsed_trace (tr : List LineEvent) (r : MeasResult) (n : Nat) :
    tr ++ [LineEvent.dir false] ++ [LineEvent.m true r] ++ [LineEvent.p] ++ List.replicate n LineEvent.p =
      tr ++ [LineEvent.dir false, LineEvent.m true r] ++ List.replicate (n + 1) LineEvent.p := by
  simp [List.replicate_succ]

/-- The timer's pulse and those drawn after it stay inside the bound of the rise window. -/
theorem morePolls_succ_le (us : Nat) (s : State) : morePolls (pollBound us) 1 s + 1 ≤ pollBound us :=
  Nat.add_le_of_le_sub (pollBound_pos us) (morePolls_le ..)

/-- A rise window that times out has made at least the timer's pulse and no more than its periods. -/
theorem riseClose_risePulsed_timeout (todo : List Action) (s : State) :
    ∃ k, 1 ≤ k ∧ k ≤ pollBound (timeoutUs s) ∧
      riseClose .timeout (risePulsed .timeout todo s) = { s with
        sdataOe := false, sclk := false, tmr := .idle, mcnt := none
        fault := syncFault false, busy := false, todo := [], edges := s.edges.tail, polls := s.polls.tail
        reply := some (.fault (syncFault false))
        trace := s.trace ++ [.dir false, .m true .timeout] ++ List.replicate k .p } := by
  refine ⟨_ + 1, Nat.le_add_left .., morePolls_succ_le (timeoutUs s) (risePulsed .timeout todo s), ?_⟩
  rw [riseClose_timeout, pollPulses_of_low _ _ rfl, ← risePulsed_trace]
  rfl

/-- Settles O31: the timer's pulse and the drawn ones stand before the fault. -/
theorem waitPollRiseTimeout : Obligations.WaitPollRiseTimeout := by
  unfold Obligations.WaitPollRiseTimeout
  intro b s rest e1 es h he ht
  obtain ⟨hrun, h5⟩ := h.reaches_riseEnd b he ht
  obtain ⟨k, hpos, hle, hclose⟩ := riseClose_risePulsed_timeout (flushing rest) s
  refine ⟨k, hpos, hle, ?_⟩
  rw [runOn_add 5 1 hrun, runOn_next ((h5.step b).trans (congrArg Host.Outcome.next hclose)), he, List.drop_one]
  rfl

/-- `s` with the rise window ended `Ok` at `t1` after `k1` poll pulses; `todo` is left to do. -/
def riseEnded (t1 k1 : Nat) (todo : List Action) (s : State) : State := { s with
  sdataOe := false, sclk := false, tmr := .idle, mcnt := some t1, edges := s.edges.tail, polls := s.polls.tail
  todo := todo
  trace := s.trace ++ [.dir false, .m true (.ok t1)] ++ List.replicate k1 .p }

/-- A rise window that ends `Ok` has made at least the timer's pulse and no more than its periods. -/
theorem riseClose_risePulsed_ok (t1 : Nat) (todo : List Action) (s : State) :
    ∃ k1, 1 ≤ k1 ∧ k1 ≤ pollBound t1 ∧
      riseClose (.ok t1) (risePulsed (.ok t1) todo s) = riseEnded t1 k1 (.fall t1 k1 :: todo) s := by
  refine ⟨_ + 1, Nat.le_add_left .., morePolls_succ_le t1 (risePulsed (.ok t1) todo s), ?_⟩
  rw [riseClose_ok, pollPulses_of_low _ _ rfl, riseEnded, ← risePulsed_trace, Nat.add_comm 1]
  rfl

/-- `s` with the rise window ended `Ok` at `t1` after `k1` poll pulses and the fall window open, which will end
with `r`; `todo` is left to do. -/
def fallOpened (t1 k1 : Nat) (r : MeasResult) (todo : List Action) (s : State) : State := { s with
  sdataOe := false, sclk := false, tmr := .idle, mcnt := some 0, edges := s.edges.tail.tail, polls := s.polls.tail
  todo := todo
  trace := s.trace ++ [.dir false, .m true (.ok t1)] ++ List.replicate k1 .p ++ [.m false r] }

theorem fallOpen_riseEnded (t1 k1 : Nat) (todo : List Action) {s : State} {e1 e2 : EdgeAnswer} {es : List EdgeAnswer}
    {r : MeasResult} (he : s.edges = e1 :: e2 :: es) (hr : windowResult (timeoutUs s) e2 = r) :
    fallOpen t1 k1 (riseEnded t1 k1 todo s) = fallOpened t1 k1 r (.fallEnd t1 k1 r :: todo) s := by
  have hm : measureResult false (riseEnded t1 k1 todo s) = r :=
    (measureResult_script (congrArg List.tail he)).trans hr
  rw [fallOpen_eq, hm]
  rfl

theorem Running.reaches_fallEnd (b : Board) {s : State} {rest : List Action} {e1 e2 : EdgeAnswer}
    {es : List EdgeAnswer} {t1 : Nat} {r : MeasResult} (h : Running s (waitAndPoll ++ rest))
    (he : s.edges = e1 :: e2 :: es) (h1 : windowResult (timeoutUs s) e1 = .ok t1)
    (h2 : windowResult (timeoutUs s) e2 = r) :
    ∃ k1, 1 ≤ k1 ∧ k1 ≤ pollBound t1 ∧
      runOn b 7 s = .next (fallOpened t1 k1 r (.fallEnd t1 k1 r :: flushing rest) s) ∧
      Running (fallOpened t1 k1 r (.fallEnd t1 k1 r :: flushing rest) s) (.fallEnd t1 k1 r :: flushing rest) := by
  obtain ⟨hrun, h5⟩ := h.reaches_riseEnd b he h1
  obtain ⟨k1, hpos, hle, hclose⟩ := riseClose_risePulsed_ok t1 (flushing rest) s
  obtain ⟨h6, hgo6⟩ := h5.go b (congrArg Host.Outcome.next hclose) rfl rfl rfl
  have hopen := fallOpen_riseEnded t1 k1 (flushing rest) he h2
  obtain ⟨h7, hgo7⟩ := h6.go b (congrArg Host.Outcome.next hopen) rfl rfl rfl
  exact ⟨k1, hpos, hle, (runOn_add 5 2 hrun).trans ((hgo6 1).trans (hgo7 0)), h7⟩

/-- The poll pulses of the fall window stay inside the bound of the whole poll phase. -/
theorem add_morePolls_le {k1 t1 us : Nat} (hk : k1 ≤ pollBound t1) (s : State) :
    k1 + morePolls (pollBound (t1 + us)) k1 s ≤ pollBound (t1 + us) := by
  have hn := morePolls_le (pollBound (t1 + us)) k1 s
  have hb := pollBound_mono (Nat.le_add_right t1 us)
  omega

/-- A fall window that times out keeps the pulses of the whole poll phase inside its periods. -/
theorem fallClose_fallOpened_timeout {t1 k1 : Nat} (todo : List Action) (s : State) (hk : k1 ≤ pollBound t1) :
    ∃ k2, k1 + k2 ≤ pollBound (t1 + timeoutUs s) ∧
      fallClose t1 k1 .timeout (fallOpened t1 k1 .timeout todo s) = { s with
        sdataOe := false, sclk := false, tmr := .idle, mcnt := none
        fault := syncFault true, busy := false, todo := [], edges := s.edges.tail.tail, polls := s.polls.tail.tail
        reply := some (.fault (syncFault true))
        trace := s.trace ++ [.dir false, .m true (.ok t1)] ++ List.replicate k1 .p ++ [.m false .timeout] ++
          List.replicate k2 .p } := by
  refine ⟨_, add_morePolls_le hk (fallOpened t1 k1 .timeout todo s), ?_⟩
  rw [fallClose_timeout, pollPulses_of_low _ _ rfl]
  rfl

/-- Settles O32: the fall window's pulses stand between its opening and the fault. -/
theorem waitPollFallTimeout : Obligations.WaitPollFallTimeout := by
  unfold Obligations.WaitPollFallTimeout
  intro b s rest e1 e2 es t1 h he h1 h2
  obtain ⟨k1, hpos, hle, hrun, h7⟩ := h.reaches_fallEnd b he h1 h2
  obtain ⟨k2, hle2, hclose⟩ := fallClose_fallOpened_timeout (flushing rest) s hle
  refine ⟨k1, k2, hpos, hle2, ?_⟩
  rw [runOn_add 7 1 hrun, runOn_next ((h7.step b).trans (congrArg Host.Outcome.next hclose)), he,
    ← List.drop_one (l := s.polls), List.tail_drop]
  rfl

/-! ## A wait-and-poll that succeeds -/

/-- The line events of a wait-and-poll whose windows end `Ok` at `t1` and `t2` after `k1` and `k2` poll pulses. -/
def waitPollEvents (t1 k1 t2 k2 : Nat) : List LineEvent :=
  .dir false :: .m true (.ok t1) :: (List.replicate k1 LineEvent.p ++ LineEvent.m false (.ok t2) ::
    (List.replicate k2 LineEvent.p ++ LineEvent.d false :: LineEvent.dir true :: List.replicate 40 LineEvent.p))

/-- Undriven pulses while the target is waited for, and zeros. -/
theorem clockedFrom_waitPollEvents (t1 k1 t2 k2 : Nat) (out oe : Bool) (es : List LineEvent) :
    clockedFrom out oe (waitPollEvents t1 k1 t2 k2 ++ es) =
      List.replicate (k1 + k2) Sym.z ++ List.replicate 40 Sym.zero ++ clockedFrom false true es := by
  simp [waitPollEvents, clockedFrom, clockedFrom_pulses, pulseSym, List.replicate_add,
    -List.replicate_append_replicate]

/-- `s` with the fall window ended `Ok` at `t2` after `k2` poll pulses of its own; `todo` is left to do. -/
def fallEnded (t1 k1 t2 k2 : Nat) (todo : List Action) (s : State) : State := { s with
  sdataOe := false, sclk := false, tmr := .idle, mcnt := some t2
  edges := s.edges.tail.tail, polls := s.polls.tail.tail, todo := todo
  trace := s.trace ++ [.dir false, .m true (.ok t1)] ++ List.replicate k1 .p ++ [.m false (.ok t2)] ++
    List.replicate k2 .p }

/-- A fall window that ends `Ok` keeps the pulses of the whole poll phase inside its periods. -/
theorem fallClose_fallOpened_ok {t1 k1 : Nat} (t2 : Nat) (todo : List Action) (s : State) (hk : k1 ≤ pollBound t1) :
    ∃ k2, k1 + k2 ≤ pollBound (t1 + t2) ∧
      fallClose t1 k1 (.ok t2) (fallOpened t1 k1 (.ok t2) todo s) = fallEnded t1 k1 t2 k2 todo s := by
  refine ⟨_, add_morePolls_le hk (fallOpened t1 k1 (.ok t2) todo s), ?_⟩
  rw [fallClose_ok, pollPulses_of_low _ _ rfl]
  rfl

/-- `s` after the flush: data driven low in output mode, and 40 pulses; `todo` is left to do. -/
def flushed (todo : List Action) (s : State) : State := { s with
  sdataOe := true, sdataOut := false, sclk := false, tmr := .idle, mcnt := none, todo := todo
  trace := s.trace ++ [.d false] ++ [.dir true] ++ List.replicate 40 .p }

theorem Running.flushes (b : Board) {s : State} {rest : List Action} (h : Running s (flushing rest)) :
    runOn b 4 s = .next (flushed rest s) ∧ Running (flushed rest s) rest := by
  obtain ⟨h1, g1⟩ := h.go b (t := { stopPollClock s with todo := .drive false :: .dirOut :: .pulses 40 :: rest })
    rfl rfl rfl rfl
  obtain ⟨h2, g2⟩ := h1.go b (t := { drive false (stopPollClock s) with todo := .dirOut :: .pulses 40 :: rest })
    rfl rfl rfl rfl
  obtain ⟨h3, g3⟩ := h2.go b (t := { dirOut (drive false (stopPollClock s)) with todo := .pulses 40 :: rest })
    rfl rfl rfl rfl
  obtain ⟨h4, g4⟩ := h3.go b (t := flushed rest s) (congrArg Host.Outcome.next (pulses_eq ..)) rfl rfl rfl
  exact ⟨(g1 3).trans ((g2 2).trans ((g3 1).trans (g4 0))), h4⟩

/-- `s` after a wait-and-poll whose two windows ended `Ok`; `todo` is left to do. -/
def synced (t1 k1 t2 k2 : Nat) (todo : List Action) (s : State) : State := { s with
  sdataOe := true, sdataOut := false, sclk := false, tmr := .idle, mcnt := none
  todo := todo, edges := s.edges.drop 2, polls := s.polls.drop 2, trace := s.trace ++ waitPollEvents t1 k1 t2 k2 }

theorem flushed_fallEnded (t1 k1 t2 k2 : Nat) (todo todo' : List Action) (s : State) :
    flushed todo (fallEnded t1 k1 t2 k2 todo' s) = synced t1 k1 t2 k2 todo s := by
  simp [flushed, fallEnded, synced, waitPollEvents, ← List.drop_one, List.drop_drop]

/-- A wait-and-poll whose two scripted windows end `Ok` leaves `synced` and goes on with what follows it. -/
theorem Running.waits (b : Board) {s : State} {rest : List Action} {e1 e2 : EdgeAnswer} {es : List EdgeAnswer}
    {t1 t2 : Nat} (h : Running s (waitAndPoll ++ rest)) (he : s.edges = e1 :: e2 :: es)
    (h1 : windowResult (timeoutUs s) e1 = .ok t1) (h2 : windowResult (timeoutUs s) e2 = .ok t2) :
    ∃ k1 k2, 1 ≤ k1 ∧ k1 + k2 ≤ pollBound (t1 + t2) ∧ runOn b 12 s = .next (synced t1 k1 t2 k2 rest s) ∧
      Running (synced t1 k1 t2 k2 rest s) rest := by
  obtain ⟨k1, hpos, hle, hrun, h7⟩ := h.reaches_fallEnd b he h1 h2
  obtain ⟨k2, hle2, hclose⟩ := fallClose_fallOpened_ok t2 (flushing rest) s hle
  obtain ⟨h8, hgo⟩ := h7.go b (congrArg Host.Outcome.next hclose) rfl rfl rfl
  obtain ⟨hflush, h12⟩ := h8.flushes b
  rw [flushed_fallEnded] at hflush h12
  exact ⟨k1, k2, hpos, hle2, (runOn_add 7 5 hrun).trans ((hgo 4).trans hflush), h12⟩

theorem clockedBetween_synced (t1 k1 t2 k2 : Nat) (todo : List Action) (s : State) :
    clockedBetween s (synced t1 k1 t2 k2 todo s) = List.replicate (k1 + k2) Sym.z ++ List.replicate 40 Sym.zero := by
  have h := clockedFrom_waitPollEvents t1 k1 t2 k2 s.sdataOut s.sdataOe []
  rwa [List.append_nil, clockedFrom, List.append_nil, ← newEvents_of (t := synced t1 k1 t2 k2 todo s) rfl] at h

/-- `synced` with its line events spelled out. -/
theorem synced_eq (t1 k1 t2 k2 : Nat) (todo : List Action) {s : State} {e1 e2 : EdgeAnswer} {es : List EdgeAnswer}
    (he : s.edges = e1 :: e2 :: es) : synced t1 k1 t2 k2 todo s = { s with
      sdataOe := true, sdataOut := false, sclk := false, tmr := .idle, mcnt := none
      todo := todo, edges := es, polls := s.polls.drop 2
      trace := s.trace ++ [.dir false, .m true (.ok t1)] ++ List.replicate k1 .p ++ [.m false (.ok t2)] ++
        List.replicate k2 .p ++ [.d false, .dir true] ++ List.replicate 40 .p } := by
  simp [synced, waitPollEvents, he]

/-- The last action of a command that answers `Done`. -/
theorem Running.finishes (b : Board) {s : State} (h : Running s [.finish]) :
    runOn b 1 s = .next { s with busy := false, todo := [], reply := some .done } :=
  runOn_next (h.step b)

/-- `s` after the acceptance of `WAITPOLL`, with `rest` left in the inbox. -/
def waitPollAccepted (rest : List HostInput) (s : State) : State :=
  { s with inbox := rest, busy := true, reply := none, todo := waitAndPoll ++ [.finish] }

theorem running_waitPollAccepted (s : State) : Running (waitPollAccepted [] s) (waitAndPoll ++ [.finish]) :=
  ⟨rfl, rfl, rfl⟩

theorem Offered.waitpoll (b : Board) {s : State} {rest : List HostInput} (h : Offered s (.cmd .waitpoll) rest)
    (hhs : s.hs = .ready) (hf : s.fault.valid = false) : stepOn b s = .next (waitPollAccepted rest s) := by
  rw [h.step b, serveInput, acceptCommand, if_pos (by simp [ready, hhs, hf])]
  rfl

/-- Settles O30: the step that accepts the command, the two windows and the flush, and the step that answers. -/
theorem waitPollSuccess : Obligations.WaitPollSuccess := by
  unfold Obligations.WaitPollSuccess
  refine ⟨fun b s rest h hhs hf => h.waitpoll b hhs hf,
    fun b s e1 e2 es t1 t2 he h1 h2 => ⟨fun rest h => ?_, fun h hhs hf => ?_⟩⟩
  · obtain ⟨k1, k2, hpos, hle, hrun, -⟩ := h.waits b he h1 h2
    exact ⟨k1, k2, _, hpos, hle, hrun, synced_eq t1 k1 t2 k2 rest he, clockedBetween_synced t1 k1 t2 k2 rest s⟩
  · have he' : (waitPollAccepted [] s).edges = e1 :: e2 :: es := he
    obtain ⟨k1, k2, hpos, hle, h12, hr⟩ := (running_waitPollAccepted s).waits b he' h1 h2
    have hend := (runOn_next (h.waitpoll b hhs hf)).trans ((runOn_add 12 1 h12).trans (hr.finishes b))
    rw [synced_eq t1 k1 t2 k2 [.finish] he'] at hend
    refine ⟨k1, k2, hpos, hle, hend.trans ?_⟩
    rw [h.busy]
    rfl

end Sys2Proof.Machine

namespace Sys2Proof.Machine

/-! ## Steps and what they clock -/

/-- The line events `es` lead from the pins of `s` to those of `t`, and clock `syms`, whatever follows. -/
structure Clocks (es : List LineEvent) (syms : List Sym) (s t : State) : Prop where
  trace : t.trace = s.trace ++ es
  syms : ∀ tl, clockedFrom s.sdataOut s.sdataOe (es ++ tl) = syms ++ clockedFrom t.sdataOut t.sdataOe tl

theorem Clocks.clockedBetween {es : List LineEvent} {syms : List Sym} {s t : State} (h : Clocks es syms s t) :
    clockedBetween s t = syms := by
  have := h.syms []
  rwa [List.append_nil, clockedFrom, List.append_nil, ← newEvents_of h.trace] at this

theorem Clocks.trans {es es' : List LineEvent} {syms syms' : List Sym} {s t u : State} (h : Clocks es syms s t)
    (h' : Clocks es' syms' t u) : Clocks (es ++ es') (syms ++ syms') s u where
  trace := by rw [h'.trace, h.trace, List.append_assoc]
  syms tl := by rw [List.append_assoc, h.syms, h'.syms, List.append_assoc]

/-- A change that makes no line event and leaves the pins clocks nothing. -/
theorem clocks_nil {s t : State} (htr : t.trace = s.trace) (ho : t.sdataOut = s.sdataOut) (hoe : t.sdataOe = s.sdataOe) :
    Clocks [] [] s t :=
  ⟨htr.trans (List.append_nil _).symm, fun tl => by rw [ho, hoe]; rfl⟩

/-- Some steps lead from `s` to `t`, and clock `syms`. -/
def RunsClocking (b : Board) (syms : List Sym) (s t : State) : Prop :=
  ∃ n es, runOn b n s = .next t ∧ Clocks es syms s t

theorem RunsClocking.trans {b : Board} {syms syms' : List Sym} {s t u : State} (h : RunsClocking b syms s t)
    (h' : RunsClocking b syms' t u) : RunsClocking b (syms ++ syms') s u := by
  obtain ⟨n, es, hrun, hc⟩ := h
  obtain ⟨m, es', hrun', hc'⟩ := h'
  exact ⟨n + m, es ++ es', (runOn_add n m hrun).trans hrun', hc.trans hc'⟩

/-- `s` with `HS` at `h`; `todo` is left to do. -/
def hsSet (h : HS) (todo : List Action) (s : State) : State := { s with hs := h, todo := todo }

/-- A step that writes `HS` clocks nothing. -/
theorem Running.sets_hs (b : Board) {s : State} {h' : HS} {rest : List Action} (h : Running s (.setHs h' :: rest)) :
    RunsClocking b [] s (hsSet h' rest s) ∧ Running (hsSet h' rest s) rest := by
  obtain ⟨hr, hgo⟩ := h.go b (t := hsSet h' rest s) rfl rfl rfl rfl
  exact ⟨⟨1, [], hgo 0, clocks_nil rfl rfl rfl⟩, hr⟩

/-! ## The acceptance of `ACQUIRE` -/

/-- `s` after the acceptance of `ACQUIRE`, with `rest` left in the inbox. -/
def acquireStarted (rest : List HostInput) (s : State) : State := { s with
  inbox := rest, busy := true, reply := none, fault := FaultReg.clear, rdlog := [], hs := .poweredOff
  todo := acquireProgram s.cfgRstMode }

theorem Offered.acquire (b : Board) {s : State} {rest : List HostInput} (h : Offered s (.cmd .acquire) rest)
    (hp : s.cfgRstMode = false ∨ b.hasPwr = true) : stepOn b s = .next (acquireStarted rest s) := by
  rw [h.step b, serveInput, acceptCommand, if_neg (by rcases hp with hp | hp <;> simp [hp])]
  rfl

/-- Settles O33: a board that has the selected path takes the command. -/
theorem acquireAccepted : Obligations.AcquireAccepted := by
  unfold Obligations.AcquireAccepted
  exact fun b s rest h hp => h.acquire b hp

/-- Settles O34: a board without the line refuses the power path. -/
theorem powerPathNeedsLine : Obligations.PowerPathNeedsLine := by
  unfold Obligations.PowerPathNeedsLine
  intro b s rest h hm hp
  rw [h.step b, serveInput, acceptCommand, if_pos (by simp [hm, hp])]
  rfl

/-! ## Actions that only move the pins, one after the other -/

/-- What an action leaves; a state in which it answers none is left as it is. -/
def afterAction (b : Board) (a : Action) (s : State) : State :=
  match doAction b a s with
  | .next t => t
  | .fault _ => s
  | .refused _ => s

theorem doAction_eq_afterAction {a : Action} (ha : a.movesPins = true) (b : Board) (s : State) :
    doAction b a s = .next (afterAction b a s) := by
  cases a with
  | load | loadInit3 | run | rise | riseEnd | fall | fallEnd | detect | finish | finishRead => cases ha
  | _ => rfl

/-- What a list of actions leaves, `rest` following it. -/
def afterActions (b : Board) : List Action → List Action → State → State
  | [], _, s => s
  | a :: as, rest, s => afterActions b as rest (afterAction b a { s with todo := as ++ rest })

/-- Actions that only move the pins take a step each, and the command goes on with what follows them. -/
theorem Running.moves_pins (b : Board) {as rest : List Action} {s : State} (h : Running s (as ++ rest))
    (ha : as.all Action.movesPins = true) :
    runOn b as.length s = .next (afterActions b as rest s) ∧ Running (afterActions b as rest s) rest := by
  induction as generalizing s with
  | nil => exact ⟨rfl, h⟩
  | cons a as ih =>
    obtain ⟨ha, has⟩ := Bool.and_eq_true_iff.1 ha
    have hd := doAction_eq_afterAction ha b { s with todo := as ++ rest }
    obtain ⟨-, htd, -, -, hb, -⟩ := doAction_movesPins ha hd
    obtain ⟨-, -, -, hin, -⟩ := doAction_keeps hd
    obtain ⟨hr, hgo⟩ := h.go b hd hb hin htd
    obtain ⟨hrun, hrest⟩ := ih hr has
    exact ⟨(hgo as.length).trans hrun, hrest⟩

/-! ## The magic pattern -/

/-- `s` after `SendMagic()` (R199); `todo` is left to do. -/
def magicSent (b : Board) (todo : List Action) (s : State) : State := { s with
  sdataOe := true, sclk := false, sdataOut := b.magic.toList.getLastD s.sdataOut, hs := .magicSent, todo := todo
  trace := s.trace ++ .dir true :: bitEvents b.magic.toList }

theorem afterActions_sendMagicProgram (b : Board) (rest : List Action) (s : State) :
    afterActions b sendMagicProgram rest s = magicSent b rest s := by
  simp [sendMagicProgram, afterActions, afterAction, doAction, sendMagic_eq, dirOut, emit, magicSent]

theorem Running.sends_magic (b : Board) {s : State} {rest : List Action} (h : Running s (sendMagicProgram ++ rest)) :
    runOn b 3 s = .next (magicSent b rest s) ∧ Running (magicSent b rest s) rest :=
  afterActions_sendMagicProgram b rest s ▸ h.moves_pins b rfl

/-! ## The hard reset path -/

/-- The actions of the hard path before the magic pattern. -/
def resetProgram : List Action := hardResetProgram.take 9

/-- The line events of the reset sequence (R193). -/
def resetEvents (b : Board) : List LineEvent :=
  [.x true, .w (b.delay .xresHold), .x false, .w (b.delay .xresGap), .x true, .w (b.delay .xresBrief), .x false,
    .w (b.delay .xresToMagic)]

/-- `s` after the reset sequence; `todo` is left to do. -/
def resetReleased (b : Board) (todo : List Action) (s : State) : State :=
  { s with xres := false, hs := .resetting, todo := todo, trace := s.trace ++ resetEvents b }

theorem afterActions_resetProgram (b : Board) (rest : List Action) (s : State) :
    afterActions b resetProgram rest s = resetReleased b rest s := by
  simp [resetProgram, hardResetProgram, afterActions, afterAction, doAction, setXres, delayFor, emit, resetReleased,
    resetEvents]

/-- `s` after the hard path; `todo` is left to do. -/
def hardReset (b : Board) (todo : List Action) (s : State) : State :=
  magicSent b todo (resetReleased b (sendMagicProgram ++ todo) s)

theorem Running.hard_resets (b : Board) {s : State} {rest : List Action} (h : Running s (hardResetProgram ++ rest)) :
    runOn b 12 s = .next (hardReset b rest s) ∧ Running (hardReset b rest s) rest := by
  obtain ⟨hreset, h9⟩ := Running.moves_pins b (as := resetProgram) h rfl
  rw [afterActions_resetProgram] at hreset h9
  obtain ⟨hmagic, h12⟩ := h9.sends_magic b
  exact ⟨(runOn_add 9 3 hreset).trans hmagic, h12⟩

/-- The hard path clocks the magic pattern, from either direction of the line. -/
theorem clocks_hardReset (b : Board) (todo : List Action) (s : State) :
    Clocks (resetEvents b ++ .dir true :: bitEvents b.magic.toList) (drivenSyms b.magic.toList) s
      (hardReset b todo s) where
  trace := List.append_assoc ..
  syms tl := by
    rw [List.append_assoc]
    exact clockedFrom_bits b.magic.toList s.sdataOut tl

/-- Settles O35: the reset sequence and the magic pattern, whose actions only move the pins. -/
theorem hardResetPath : Obligations.HardResetPath := by
  unfold Obligations.HardResetPath
  intro b s rest h
  obtain ⟨hassert, -⟩ := Running.moves_pins b (as := [.xres true, .setHs .resetting]) h rfl
  refine ⟨⟨_, hassert, rfl, rfl, rfl⟩, _, (h.hard_resets b).1, ?_, (clocks_hardReset b rest s).clockedBetween,
    Vector.length_toList⟩
  simp [hardReset, magicSent, resetReleased, resetEvents]

/-! ## The power-cycle path -/

/-- The actions of the power path before the power-up detection. -/
def powerUpProgram : List Action := powerCycleProgram.take 8

/-- What the power path does from the detection on, and `rest` after it. -/
def detecting (rest : List Action) : List Action := .detect true :: .detect false :: (sendMagicProgram ++ rest)

/-- The line events of the power path before the detection (R195). -/
def powerUpEvents (b : Board) : List LineEvent :=
  [.pw false, .w (b.delay .pwrOff), .x true, .pw true, .w (b.delay .pwrRst), .x false, .dir false]

/-- `s` with power on, reset released and the line an input; `todo` is left to do. -/
def poweredUp (b : Board) (todo : List Action) (s : State) : State := { s with
  pwrEn := true, xres := false, sdataOe := false, hs := .resetting, todo := todo
  trace := s.trace ++ powerUpEvents b }

theorem afterActions_powerUpProgram (b : Board) (rest : List Action) (s : State) :
    afterActions b powerUpProgram rest s = poweredUp b rest s := by
  simp [powerUpProgram, powerCycleProgram, afterActions, afterAction, doAction, setPower, setXres, delayFor, dirIn, emit,
    poweredUp, powerUpEvents]

theorem Running.powers_up (b : Board) {s : State} {rest : List Action} (h : Running s (powerCycleProgram ++ rest)) :
    runOn b 8 s = .next (poweredUp b (detecting rest) s) ∧ Running (poweredUp b (detecting rest) s) (detecting rest) :=
  afterActions_powerUpProgram b (detecting rest) s ▸ Running.moves_pins b (as := powerUpProgram) h rfl

/-- `s` after a measurement that waited for `l` and ended with `r`; `todo` is left to do. -/
def detected (l : Level) (r : MeasResult) (todo : List Action) (s : State) : State :=
  { s with edges := s.edges.tail, todo := todo, trace := s.trace ++ [.m l r] }

/-- A detection that sees its level goes on with what follows it. -/
theorem Running.detects (b : Board) {s : State} {l : Level} {rest : List Action} {e : EdgeAnswer} {es : List EdgeAnswer}
    {t : Nat} (h : Running s (.detect l :: rest)) (he : s.edges = e :: es) (ht : windowResult (timeoutUs s) e = .ok t) :
    runOn b 1 s = .next (detected l (.ok t) rest s) ∧ Running (detected l (.ok t) rest s) rest := by
  have hm : measureResult l { s with todo := rest } = .ok t := (measureResult_script he).trans ht
  obtain ⟨hr, hgo⟩ := h.go b (congrArg Host.Outcome.next (detectPulse_ok hm)) rfl rfl rfl
  exact ⟨hgo 0, hr⟩

/-- A detection that times out ends the command with the fault of its phase. -/
theorem Running.misses (b : Board) {s : State} {l : Level} {rest : List Action} {e : EdgeAnswer} {es : List EdgeAnswer}
    (h : Running s (.detect l :: rest)) (he : s.edges = e :: es) (ht : windowResult (timeoutUs s) e = .timeout) :
    runOn b 1 s = .next (raise (syncFault (!l)) (detected l .timeout rest s)) := by
  have hm : measureResult l { s with todo := rest } = .timeout := (measureResult_script he).trans ht
  exact runOn_next ((h.step b).trans (congrArg Host.Outcome.next (detectPulse_timeout hm)))

/-- `s` with the rise of the power-up pulse seen at `t1`; `rest` follows the power path. -/
def riseDetected (b : Board) (t1 : Nat) (rest : List Action) (s : State) : State :=
  detected true (.ok t1) (.detect false :: (sendMagicProgram ++ rest)) (poweredUp b (detecting rest) s)

theorem Running.detects_rise (b : Board) {s : State} {rest : List Action} {e : EdgeAnswer} {es : List EdgeAnswer}
    {t1 : Nat} (h : Running s (powerCycleProgram ++ rest)) (he : s.edges = e :: es)
    (h1 : windowResult (timeoutUs s) e = .ok t1) :
    runOn b 9 s = .next (riseDetected b t1 rest s) ∧
      Running (riseDetected b t1 rest s) (.detect false :: (sendMagicProgram ++ rest)) := by
  obtain ⟨hup, h8⟩ := h.powers_up b
  obtain ⟨hrise, h9⟩ := h8.detects b he h1
  exact ⟨(runOn_add 8 1 hup).trans hrise, h9⟩

theorem riseDetected_edges (b : Board) (t1 : Nat) (rest : List Action) {s : State} {e : EdgeAnswer}
    {es : List EdgeAnswer} (he : s.edges = e :: es) : (riseDetected b t1 rest s).edges = es := congrArg List.tail he

/-- Settles O36: the lines, the two detections and the magic pattern. -/
theorem powerCyclePath : Obligations.PowerCyclePath := by
  unfold Obligations.PowerCyclePath
  intro b s rest e1 e2 es t1 t2 h he h1 h2
  obtain ⟨hrise, h9⟩ := h.detects_rise b he h1
  obtain ⟨hfall, h10⟩ := h9.detects b (riseDetected_edges b t1 rest he) h2
  obtain ⟨hmagic, -⟩ := h10.sends_magic b
  rw [runOn_add 9 4 hrise, runOn_add 1 3 hfall, hmagic]
  simp [magicSent, detected, riseDetected, poweredUp, powerUpEvents, he]

/-- Settles O37: the lines, then the detection that times out. -/
theorem powerUpDetectionTimeout : Obligations.PowerUpDetectionTimeout := by
  unfold Obligations.PowerUpDetectionTimeout
  intro b s rest h
  refine ⟨fun e1 es he h1 => ?_, fun e1 e2 es t1 he h1 h2 => ?_⟩
  · obtain ⟨hup, h8⟩ := h.powers_up b
    refine ⟨_, (runOn_add 8 1 hup).trans (h8.misses b he h1), rfl, rfl, rfl, rfl, rfl, rfl, rfl, rfl, newEvents_of ?_⟩
    exact List.append_assoc ..
  · obtain ⟨hrise, h9⟩ := h.detects_rise b he h1
    refine ⟨_, (runOn_add 9 1 hrise).trans (h9.misses b (riseDetected_edges b t1 rest he) h2),
      rfl, rfl, rfl, rfl, rfl, rfl, rfl, rfl, newEvents_of ?_⟩
    exact (List.append_assoc ..).trans (List.append_assoc ..)

end Sys2Proof.Machine

namespace Sys2Proof.Machine

/-! ## What a list of instructions keeps -/

/-- What every instruction keeps, a list of them keeps. -/
theorem afterAll_keeps {P : State → Prop} (hP : ∀ i s, P s → P (afterInstr i s)) (is : List Instr) {s : State} (h : P s) :
    P (afterAll is s) := by
  induction is generalizing s with
  | nil => exact h
  | cons i is ih => exact ih (hP i s h)

/-- `t` has the fault register, the lines and the configuration of `s`. -/
structure KeepsSession (s t : State) : Prop where
  fault : t.fault = s.fault
  xres : t.xres = s.xres
  pwrEn : t.pwrEn = s.pwrEn
  cfgVsel : t.cfgVsel = s.cfgVsel
  timeout : t.cfgTimeout = s.cfgTimeout

theorem KeepsSession.trans {s t u : State} (h : KeepsSession s t) (h' : KeepsSession t u) : KeepsSession s u :=
  ⟨h'.fault.trans h.fault, h'.xres.trans h.xres, h'.pwrEn.trans h.pwrEn, h'.cfgVsel.trans h.cfgVsel,
    h'.timeout.trans h.timeout⟩

theorem KeepsSession.timeoutUs {s t : State} (h : KeepsSession s t) : timeoutUs t = timeoutUs s :=
  congrArg BitVec.toNat h.timeout

theorem keepsSession_afterInstr (i : Instr) (s : State) : KeepsSession s (afterInstr i s) := by
  obtain ⟨-, -, -, -, -, hf, hv, -, hto, hx, hp, -⟩ := afterInstr_keeps i s
  exact ⟨hf, hx, hp, hv, hto⟩

/-- The pins rest as a frame leaves them, and the timer is idle. -/
structure AtRest (s : State) : Prop where
  oe : s.sdataOe = true
  sclk : s.sclk = false
  tmr : s.tmr = .idle

theorem atRest_afterInstr (i : Instr) (s : State) (h : AtRest s) : AtRest (afterInstr i s) := by
  obtain ⟨-, -, -, -, -, -, -, -, -, -, -, htm, -⟩ := afterInstr_keeps i s
  exact ⟨afterInstr_sdataOe i h.oe, afterInstr_sclk i s, htm.trans h.tmr⟩

theorem afterAll_sdataOe (is : List Instr) {s : State} (h : s.sdataOe = true) : (afterAll is s).sdataOe = true :=
  afterAll_keeps (P := fun t => t.sdataOe = true) (fun i _ => afterInstr_sdataOe i) is h

theorem afterAll_edges (is : List Instr) (s : State) : (afterAll is s).edges = s.edges := by
  refine afterAll_keeps (P := fun t => t.edges = s.edges) (fun i t ht => ?_) is rfl
  obtain ⟨-, -, -, -, -, -, -, -, -, -, -, -, -, -, -, -, he, -⟩ := afterInstr_keeps i t
  exact he.trans ht

/-- A vector's events clock its frames, whatever follows. -/
theorem clockedFrom_vectorEvents_append (is : List Instr) (s : State) (es : List LineEvent) :
    clockedFrom s.sdataOut true (vectorEvents is s ++ es) =
      framesOf is ++ clockedFrom (afterAll is s).sdataOut true es := by
  induction is generalizing s with
  | nil => rfl
  | cons i is ih => rw [vectorEvents, List.append_assoc, clockedFrom_instrEvents, ih, framesOf, List.append_assoc, afterAll]

/-! ## The execution of a vector -/

/-- The vector `buf` fits the program counter and decodes to `is`. -/
structure VectorIs (b : Board) (buf : List Byte) (is : List Instr) : Prop where
  fits : buf.length < 2 ^ b.pcw
  decodes : decodeVector buf = .ok is

/-- `s` at the first command of the vector `buf`; `todo` follows the vector. -/
def vectorStarted (sel : VecSel) (buf : List Byte) (todo : List Action) (s : State) : State :=
  loadVector sel buf { s with todo := .run :: todo }

/-- `s` after the vector `buf`, whose commands are `is`; `todo` is left to do. -/
def vectorRun (sel : VecSel) (buf : List Byte) (is : List Instr) (todo : List Action) (s : State) : State :=
  { afterAll is (vectorStarted sel buf todo s) with todo := todo }

theorem keepsSession_vectorRun (sel : VecSel) (buf : List Byte) (is : List Instr) (todo : List Action) (s : State) :
    KeepsSession s (vectorRun sel buf is todo s) := by
  obtain ⟨hf, hx, hp, hv, hto⟩ : KeepsSession s (afterAll is (vectorStarted sel buf todo s)) :=
    afterAll_keeps (fun i t ht => KeepsSession.trans ht (keepsSession_afterInstr i t)) is ⟨rfl, rfl, rfl, rfl, rfl⟩
  exact ⟨hf, hx, hp, hv, hto⟩

theorem vectorRun_edges (sel : VecSel) (buf : List Byte) (is : List Instr) (todo : List Action) (s : State) :
    (vectorRun sel buf is todo s).edges = s.edges := afterAll_edges is (vectorStarted sel buf todo s)

theorem atRest_vectorRun (sel : VecSel) (buf : List Byte) (is : List Instr) (todo : List Action) {s : State}
    (h : AtRest s) : AtRest (vectorRun sel buf is todo s) := by
  obtain ⟨hoe, hc, htm⟩ : AtRest (afterAll is (vectorStarted sel buf todo s)) :=
    afterAll_keeps atRest_afterInstr is ⟨h.oe, h.sclk, h.tmr⟩
  exact ⟨hoe, hc, htm⟩

/-- The events of a vector clock its frames. -/
theorem clocks_vectorRun (sel : VecSel) (buf : List Byte) (is : List Instr) (todo : List Action) {s : State}
    (h : s.sdataOe = true) :
    Clocks (vectorEvents is (vectorStarted sel buf todo s)) (framesOf is) s (vectorRun sel buf is todo s) where
  trace := afterAll_trace is (vectorStarted sel buf todo s)
  syms tl := by
    have hoe : (vectorRun sel buf is todo s).sdataOe = true :=
      afterAll_sdataOe is (s := vectorStarted sel buf todo s) h
    rw [h, hoe]
    exact clockedFrom_vectorEvents_append is (vectorStarted sel buf todo s) tl

/-- The start of a vector that decodes, and the loop until its end: the vector's frames are clocked. -/
theorem Running.runs_vector (b : Board) {s : State} {a : Action} {src : VecSrc} {is : List Instr} {rest : List Action}
    (h : Running s (a :: .run :: rest))
    (ha : doAction b a { s with todo := .run :: rest } = startExec b src { s with todo := .run :: rest })
    (hv : VectorIs b (srcBytes b src) is) (hoe : s.sdataOe = true) :
    RunsClocking b (framesOf is) s (vectorRun (srcSel src) (srcBytes b src) is rest s) ∧
      Running (vectorRun (srcSel src) (srcBytes b src) is rest s) rest := by
  obtain ⟨hload, hgo⟩ := h.go b (t := vectorStarted (srcSel src) (srcBytes b src) rest s)
    (ha.trans (startExec_of_lt hv.fits _)) rfl rfl rfl
  have hleft : bytesLeft (vectorStarted (srcSel src) (srcBytes b src) rest s) = encodeVector is ++ [] := by
    rw [vectorStarted, bytesLeft_loadVector, List.append_nil, encodeVector_of_decodeFrom hv.decodes]
  obtain ⟨hrun, hnil, -⟩ := hload.runs_commands b hleft
  have hend := hrun.step_end b (Nat.sub_eq_zero_iff_le.1 (by rw [← bytesLeft_length, hnil]; rfl))
  exact ⟨⟨_, _, (hgo _).trans (hload.runs_commands_then hleft hend), clocks_vectorRun _ _ is rest hoe⟩,
    hrun.of rfl rfl rfl⟩

/-- Settles O38: the start of Init-Vector-3 reads `CFG.VSEL`. -/
theorem initVector3Selection : Obligations.InitVector3Selection := by
  unfold Obligations.InitVector3Selection
  intro b s rest h hlen
  exact ⟨_, (h.step b).trans (startExec_of_lt (src := .id (init3Id s)) hlen _), rfl, rfl, rfl, rfl, bytesLeft_loadVector ..⟩

/-! ## The common tail of `ACQUIRE` -/

/-- The events of a wait-and-poll clock undriven pulses and zeros. -/
theorem clocks_synced (t1 k1 t2 k2 : Nat) (todo : List Action) (s : State) :
    Clocks (waitPollEvents t1 k1 t2 k2) (List.replicate (k1 + k2) .z ++ List.replicate 40 .zero) s
      (synced t1 k1 t2 k2 todo s) :=
  ⟨rfl, clockedFrom_waitPollEvents t1 k1 t2 k2 s.sdataOut s.sdataOe⟩

/-- An init vector, the wait-and-poll after it and the state it acknowledges (R196). -/
theorem Running.syncs (b : Board) {s : State} {src : VecSrc} {is : List Instr} {h' : HS} {rest : List Action}
    {e1 e2 : EdgeAnswer} {es : List EdgeAnswer} {t1 t2 : Nat}
    (h : Running s (.load src :: .run :: (waitAndPoll ++ .setHs h' :: rest))) (hoe : s.sdataOe = true)
    (hv : VectorIs b (srcBytes b src) is)
    (he : s.edges = e1 :: e2 :: es) (h1 : windowResult (timeoutUs s) e1 = .ok t1)
    (h2 : windowResult (timeoutUs s) e2 = .ok t2) :
    ∃ t k, 1 ≤ k ∧
      RunsClocking b (framesOf is ++ (List.replicate k .z ++ List.replicate 40 .zero)) s t ∧
      Running t rest ∧ KeepsSession s t ∧ AtRest t ∧ t.edges = es := by
  obtain ⟨hexec, hr⟩ := h.runs_vector b rfl hv hoe
  have hk := keepsSession_vectorRun (srcSel src) (srcBytes b src) is (waitAndPoll ++ .setHs h' :: rest) s
  have hedges := (vectorRun_edges (srcSel src) (srcBytes b src) is (waitAndPoll ++ .setHs h' :: rest) s).trans he
  obtain ⟨k1, k2, hpos, -, hwait, hr'⟩ := hr.waits b hedges (hk.timeoutUs ▸ h1) (hk.timeoutUs ▸ h2)
  obtain ⟨hset, hr''⟩ := hr'.sets_hs b
  have hsync := RunsClocking.trans ⟨12, _, hwait, clocks_synced t1 k1 t2 k2 _ _⟩ hset
  rw [List.append_nil] at hsync
  exact ⟨_, k1 + k2, Nat.le_add_right_of_le hpos, hexec.trans hsync, hr'', hk.trans ⟨rfl, rfl, rfl, rfl, rfl⟩,
    ⟨rfl, rfl, rfl⟩, congrArg (List.drop 2) hedges⟩

/-- The Init-Vector-3 that `CFG.VSEL` selects, and the end of the command in `Ready` (R196, R201). -/
theorem Running.readies (b : Board) {s : State} {is : List Instr} (h : Running s [.loadInit3, .run, .setHs .ready, .finish])
    (hrest : AtRest s) (hv : VectorIs b (b.vec (init3Id s)) is) :
    ∃ t, RunsClocking b (framesOf is) s t ∧ KeepsSession s t ∧ AtRest t ∧ t.busy = false ∧ t.reply = some .done ∧
      t.hs = .ready := by
  obtain ⟨hexec, hr⟩ := h.runs_vector b (src := .id (init3Id s)) rfl hv hrest.oe
  obtain ⟨hset, hr'⟩ := hr.sets_hs b
  have hend := RunsClocking.trans hset ⟨1, [], hr'.finishes b, clocks_nil rfl rfl rfl⟩
  have hrun := hexec.trans hend
  rw [List.append_nil, List.append_nil] at hrun
  have hk := keepsSession_vectorRun (.vec (init3Id s)) (b.vec (init3Id s)) is [.setHs .ready, .finish] s
  have hx := atRest_vectorRun (.vec (init3Id s)) (b.vec (init3Id s)) is [.setHs .ready, .finish] hrest
  exact ⟨_, hrun, hk.trans ⟨rfl, rfl, rfl, rfl, rfl⟩, ⟨hx.oe, hx.sclk, hx.tmr⟩, rfl, rfl, rfl⟩

/-- The whole tail, whose three vectors decode and whose four windows end `Ok`. -/
theorem Running.runs_commonTail (b : Board) {s : State} {e1 e2 e3 e4 : EdgeAnswer} {es : List EdgeAnswer}
    {t1 t2 t3 t4 : Nat} {c1 c2 c3 : List Instr} (h : Running s commonTail) (hoe : s.sdataOe = true)
    (hv1 : VectorIs b (b.vec .init1) c1) (hv2 : VectorIs b (b.vec .init2) c2) (hv3 : VectorIs b (b.vec (init3Id s)) c3)
    (he : s.edges = e1 :: e2 :: e3 :: e4 :: es)
    (h1 : windowResult (timeoutUs s) e1 = .ok t1) (h2 : windowResult (timeoutUs s) e2 = .ok t2)
    (h3 : windowResult (timeoutUs s) e3 = .ok t3) (h4 : windowResult (timeoutUs s) e4 = .ok t4) :
    ∃ t k1 k2, 1 ≤ k1 ∧ 1 ≤ k2 ∧
      RunsClocking b (framesOf c1 ++ List.replicate k1 .z ++ List.replicate 40 .zero ++ framesOf c2 ++
        List.replicate k2 .z ++ List.replicate 40 .zero ++ framesOf c3) s t ∧
      KeepsSession s t ∧ AtRest t ∧ t.busy = false ∧ t.reply = some .done ∧ t.hs = .ready := by
  obtain ⟨u, k1, hk1, hrun1, hr1, hs1, hrest1, he1⟩ := Running.syncs b (src := .id .init1) h hoe hv1 he h1 h2
  obtain ⟨v, k2, hk2, hrun2, hr2, hs2, hrest2, -⟩ :=
    Running.syncs b (src := .id .init2) hr1 hrest1.oe hv2 he1 (hs1.timeoutUs ▸ h3) (hs1.timeoutUs ▸ h4)
  have hs := hs1.trans hs2
  have hsel : init3Id v = init3Id s := by rw [init3Id, hs.cfgVsel, init3Id]
  obtain ⟨t, hrun3, hs3, hend⟩ := hr2.readies b hrest2 (hsel ▸ hv3)
  refine ⟨t, k1, k2, hk1, hk2, ?_, hs.trans hs3, hend⟩
  have hrun := hrun1.trans (hrun2.trans hrun3)
  simpa only [List.append_assoc] using hrun

/-! ## `ACQUIRE` on the hard path -/

/-- `s` after the acceptance of `ACQUIRE` and the hard path: the common tail is left to do. -/
def acquireReset (b : Board) (s : State) : State := hardReset b commonTail (acquireStarted [] s)

theorem Offered.acquires_hard (b : Board) {s : State} (h : Offered s (.cmd .acquire) []) (hm : s.cfgRstMode = false) :
    runOn b 13 s = .next (acquireReset b s) ∧ Running (acquireReset b s) commonTail := by
  have hr : Running (acquireStarted [] s) (hardResetProgram ++ commonTail) :=
    ⟨rfl, rfl, by rw [acquireStarted, hm]; rfl⟩
  obtain ⟨hrun, htail⟩ := hr.hard_resets b
  exact ⟨(runOn_next (h.acquire b (.inl hm))).trans hrun, htail⟩

/-- Settles O39: the acceptance, the hard path and the common tail. -/
theorem acquireReachesReady : Obligations.AcquireReachesReady := by
  unfold Obligations.AcquireReachesReady
  intro b s e1 e2 e3 e4 es t1 t2 t3 t4 c1 c2 c3 h hm hl1 hl2 hl3 hd1 hd2 hd3 he h1 h2 h3 h4
  obtain ⟨hreset, hr⟩ := h.acquires_hard b hm
  obtain ⟨t, k1, k2, hk1, hk2, ⟨n, es', hrun, htail⟩, hs, hrest, hbusy, hreply, hhs⟩ :=
    hr.runs_commonTail b rfl ⟨hl1, hd1⟩ ⟨hl2, hd2⟩ ⟨hl3, hd3⟩ he h1 h2 h3 h4
  have hclock := (clocks_hardReset b commonTail (acquireStarted [] s)).trans htail
  refine ⟨13 + n, t, k1, k2, (runOn_add 13 n hreset).trans hrun, hbusy, hreply, hhs, hs.fault, hs.xres, hs.pwrEn,
    hrest.oe, hrest.sclk, hrest.tmr, hk1, hk2, ?_, ?_⟩
  · exact newEvents_of hclock.trace ▸ (List.prefix_append (resetEvents b) _).trans (List.prefix_append _ _)
  · exact hclock.clockedBetween.trans (by simp only [List.append_assoc])

end Sys2Proof.Machine

namespace Sys2Proof.Machine

/-! ## Steps of the handshake state -/

theorem nextHs_ne_poweredOff (h : HS) : nextHs h ≠ some .poweredOff := by cases h <;> simp [nextHs]

/-- The acceptance of a command leaves the handshake state or, `ACQUIRE`'s, sets it to `PoweredOff`. -/
theorem acceptCommand_hs (b : Board) (c : HostCmd) (s : State) :
    (acceptCommand b c s).hs = s.hs ∨ c = .acquire ∧ (acceptCommand b c s).hs = .poweredOff := by
  cases c <;> simp only [acceptCommand] <;> split <;> simp

/-- An input other than a `wait` leaves the handshake state or, `ACQUIRE` and a reset, sets it to `PoweredOff`. -/
theorem serveInput_hs {b : Board} {i : HostInput} {s t : State} (h : serveInput b i s = .next t) (hw : i ≠ .wait) :
    t.hs = s.hs ∨ (i = .cmd .acquire ∨ ∃ cut, i = .reset cut) ∧ t.hs = .poweredOff := by
  cases i with
  | wait => exact absurd rfl hw
  | cmd c =>
    obtain rfl := Host.Outcome.next.inj h
    exact (acceptCommand_hs b c s).imp_right fun ⟨hc, hhs⟩ => ⟨.inl (hc ▸ rfl), hhs⟩
  | read r =>
    obtain ⟨v, rfl⟩ := serveRead_next h
    exact .inl rfl
  | setTimeout w =>
    obtain rfl := Host.Outcome.next.inj h
    unfold writeTimeout
    split <;> exact .inl rfl
  | setVsel v | setRstMode v =>
    obtain rfl := Host.Outcome.next.inj h
    exact .inl rfl
  | reset cut =>
    obtain rfl := Host.Outcome.next.inj h
    obtain ⟨d, es, sa, ed, po, vb, he, -⟩ := resetInput_eq b cut s
    exact .inr ⟨.inr ⟨cut, rfl⟩, by rw [he]; rfl⟩

/-- An action of a running command leaves the handshake state or, its own, moves it one state on. -/
theorem Acting.hs {b : Board} {a : Action} {rest : List Action} {s t : State} {inb : List HostInput}
    (h : Acting b a rest s) (hd : doAction b a { s with inbox := inb, todo := rest } = .next t) :
    t.hs = s.hs ∨ a = .setHs t.hs ∧ nextHs s.hs = some t.hs := by
  by_cases ha : ∃ h', a = .setHs h'
  · obtain ⟨h', rfl⟩ := ha
    obtain rfl := Host.Outcome.next.inj hd
    have hq := h.order
    simp only [sequenced, Bool.and_eq_true, beq_iff_eq] at hq
    obtain ⟨⟨-, hnext⟩, -⟩ := hq
    exact .inr ⟨rfl, hnext⟩
  · obtain ⟨-, -, -, -, -, -, -, hhs⟩ := doAction_keeps hd
    exact .inl (hhs fun h' hc => ha ⟨h', hc⟩)

/-- Everything a step can do with the handshake state: leave it, move it one state on by its own action, or set it to
`PoweredOff` for `ACQUIRE` or a reset. -/
theorem stepOn_hs {b : Board} {s t : State} (hi : Inv b s) (h : stepOn b s = .next t) :
    t.hs = s.hs ∨ (nextHs s.hs = some t.hs ∧ ∃ rest, s.todo = .setHs t.hs :: rest) ∨
    (t.hs = .poweredOff ∧ (s.inbox.head? = some (.cmd .acquire) ∨ ∃ cut, s.inbox.head? = some (.reset cut))) := by
  obtain ⟨hb, inb, -, a, rest, ht, hd⟩ | ⟨-, inb, -, -, rfl⟩ | ⟨i, rest, hin, hw, -, hd⟩ | ⟨-, inb, -, rfl⟩ := stepOn_cases h
  · obtain he | ⟨rfl, hnext⟩ := Acting.hs ⟨hi, hb, ht⟩ hd
    · exact .inl he
    · exact .inr (.inl ⟨hnext, rest, ht⟩)
  · exact .inl rfl
  · obtain he | ⟨hcause, hp⟩ := serveInput_hs hd hw
    · exact .inl he
    · rw [hin]
      exact .inr (.inr ⟨hp, hcause.imp (congrArg some) fun ⟨cut, hc⟩ => ⟨cut, congrArg some hc⟩⟩)
  · exact .inl rfl

/-- Settles O40: only its own actions move the state on, none of them to `PoweredOff`. -/
theorem handshakeTransitions : Obligations.HandshakeTransitions := by
  unfold Obligations.HandshakeTransitions
  intro b s t hi h
  obtain he | ⟨hnext, hset⟩ | ⟨hp, hcause⟩ := stepOn_hs hi h
  · exact ⟨.inl he, fun hne => absurd he hne, fun _ hne => absurd he hne⟩
  · exact ⟨.inr (.inl hnext), fun _ hp => absurd (hp ▸ hnext) (nextHs_ne_poweredOff _), fun _ _ => hset⟩
  · exact ⟨.inr (.inr hp), fun _ _ => hcause, fun hnext => absurd (hp ▸ hnext) (nextHs_ne_poweredOff _)⟩

/-! ## The work a command has left -/

theorem actionWork_pos (b : Board) (a : Action) : 0 < actionWork b a := by cases a <;> simp [actionWork]

theorem workLeft_of_done {b : Board} {s : State} (h : s.todo = []) : workLeft b s = 0 := by simp [workLeft, atRun, h]

theorem workLeft_le (b : Board) (s : State) :
    workLeft b s ≤ (s.todo.map (actionWork b)).sum + (s.vlen - s.pc) := by
  unfold workLeft
  split <;> omega

section
variable {b : Board} {a : Action} {rest : List Action} {s t : State}

theorem Acting.workLeft_eq (h : Acting b a rest s) : workLeft b s =
    actionWork b a + (rest.map (actionWork b)).sum + if atRun s then s.vlen - s.pc else 0 := by
  rw [workLeft, h.todo, List.map_cons, List.sum_cons]

/-- An action that ends the command leaves no work. -/
theorem Acting.less_of_done (h : Acting b a rest s) (ht : t.todo = []) : workLeft b t < workLeft b s := by
  have := actionWork_pos b a
  rw [workLeft_of_done ht, h.workLeft_eq]
  omega

/-- An action that puts less work in front of the rest than its own leaves less, the loop not being next. -/
theorem Acting.less_of_todo {new : List Action} (h : Acting b a rest s) (ht : t.todo = new ++ rest)
    (hr : atRun t = false) (hw : (new.map (actionWork b)).sum < actionWork b a) : workLeft b t < workLeft b s := by
  rw [workLeft, ht, hr, h.workLeft_eq, List.map_append, List.sum_append]
  simp only [Bool.false_eq_true, if_false]
  omega

/-- An action that starts no vector and goes on with the rest leaves less work. -/
theorem Acting.less_of_rest (h : Acting b a rest s) (hl : ∀ src, a ≠ .load src) (h3 : a ≠ .loadInit3)
    (ht : t.todo = rest) : workLeft b t < workLeft b s :=
  h.less_of_todo (new := []) ht (atRun_of_runsLoaded (ht ▸ runsLoaded_tail h.loaded hl h3)) (actionWork_pos b a)

/-- The start of a vector of no more bytes than its action counts leaves less work: a step for each byte. -/
theorem Acting.less_of_startExec {src : VecSrc} (h : Acting b a rest s)
    (hw : (srcBytes b src).length < actionWork b a) (hd : startExec b src { s with todo := rest } = .next t) :
    workLeft b t < workLeft b s := by
  unfold startExec at hd
  split at hd
  · obtain rfl := Host.Outcome.next.inj hd
    have hle : workLeft b (loadVector (srcSel src) (srcBytes b src) { s with todo := rest }) ≤
        (rest.map (actionWork b)).sum + (srcBytes b src).length := workLeft_le b _
    rw [h.workLeft_eq]
    omega
  · cases hd

/-- A turn of the loop takes bytes off the vector, goes on with the rest, or ends the command. -/
theorem Acting.less_of_run (h : Acting b .run rest s) (hd : doAction b .run { s with todo := rest } = .next t) :
    workLeft b t < workLeft b s := by
  have hs : { s with todo := .run :: rest } = s := by rw [← h.todo]
  have hd : runVector rest s = .next t := hs ▸ hd
  obtain ⟨i, hlen, rfl⟩ | ⟨-, rfl⟩ | ⟨c, -, rfl⟩ := runVector_cases hd
  · obtain ⟨-, hvl, -, -, -, -, -, -, -, -, -, -, -, htd, -⟩ := afterInstr_keeps i s
    have hpos := instrLength_pos i
    have hrun : atRun s = true := by simp [atRun, h.todo]
    rw [workLeft, workLeft, atRun, htd, ← atRun, hrun, afterInstr_pc, hvl, if_pos rfl, if_pos rfl]
    omega
  · exact h.less_of_rest (by simp) (by simp) rfl
  · exact h.less_of_done rfl

theorem Acting.doAction_less (h : Acting b a rest s) (hd : doAction b a { s with todo := rest } = .next t) :
    workLeft b t < workLeft b s := by
  cases a
  case load src => exact h.less_of_startExec (Nat.lt_add_of_pos_left Nat.one_pos) hd
  case loadInit3 =>
    refine h.less_of_startExec ?_ hd
    unfold init3Id
    split <;> simp only [srcBytes, actionWork] <;> omega
  case run => exact h.less_of_run hd
  case rise =>
    obtain rfl := Host.Outcome.next.inj hd
    exact h.less_of_todo (new := [.timer, .timer, .riseEnd _]) rfl rfl (by simp [actionWork])
  case riseEnd r =>
    obtain rfl := Host.Outcome.next.inj hd
    cases r with
    | ok t => exact h.less_of_todo (new := [.fall t _]) (by rw [riseClose_ok]; rfl) rfl (by simp [actionWork])
    | timeout => exact h.less_of_done rfl
  case fall t1 k1 =>
    obtain rfl := Host.Outcome.next.inj hd
    exact h.less_of_todo (new := [.fallEnd t1 k1 _]) rfl rfl (by simp [actionWork])
  case fallEnd t1 k1 r =>
    obtain rfl := Host.Outcome.next.inj hd
    cases r with
    | ok t => exact h.less_of_rest (by simp) (by simp) (by rw [fallClose_ok, pollPulses_eq])
    | timeout => exact h.less_of_done rfl
  case detect l =>
    obtain rfl := Host.Outcome.next.inj hd
    cases hr : measureResult l { s with todo := rest } with
    | ok t => exact h.less_of_rest (by simp) (by simp) (by rw [detectPulse_ok hr])
    | timeout => exact h.less_of_done (by rw [detectPulse_timeout hr]; rfl)
  case finish | finishRead => exact h.less_of_done (Host.Outcome.next.inj hd ▸ rfl)
  all_goals
    obtain ⟨-, ht, -⟩ := doAction_movesPins rfl hd
    exact h.less_of_rest (by simp) (by simp) ht

end

/-- Settles O56: each action leaves less work than it counts for. -/
theorem commandTerminates : Obligations.CommandTerminates := by
  unfold Obligations.CommandTerminates
  intro b s t hi hb hn h
  rw [stepOn_busy b hb hn, runAction] at h
  split at h
  · next ht => exact absurd ht (hi.todo_ne_nil hb)
  · next a rest ht => exact Acting.doAction_less ⟨hi, hb, ht⟩ h

end Sys2Proof.Machine

namespace Sys2Proof.Machine

/-! ## Accepting and refusing a command -/

theorem ready_iff (s : State) : ready s = true ↔ s.hs = .ready ∧ s.fault.valid = false := by simp [ready]

/-- Only `ACQUIRE` is taken while not `READY` (R227). -/
theorem acceptCommand_of_not_ready (b : Board) {c : HostCmd} {s : State} (hc : c ≠ .acquire) (hr : ¬ ready s = true) :
    acceptCommand b c s = refuse s := by
  cases c with
  | acquire => exact absurd rfl hc
  | exec | waitpoll | wrop | rdop => exact if_neg hr

/-- Settles O42: an idle block serves the command it is offered, and that is the refusal. -/
theorem readyGate : Obligations.ReadyGate := by
  unfold Obligations.ReadyGate
  intro b s c rest h hc hn
  have hr : ¬ ready { s with inbox := rest } = true := mt (ready_iff _).1 hn
  exact (h.step b).trans (congrArg Host.Outcome.next (acceptCommand_of_not_ready b hc hr))

/-- Settles O43: no command is served while `BUSY` is 1, and no action touches the inbox. -/
theorem busyTakesNoCommand : Obligations.BusyTakesNoCommand := by
  unfold Obligations.BusyTakesNoCommand
  intro b s c rest hb hin
  have hstep : stepOn b s = runAction b s := stepOn_busy b hb (by simp [noInput, hin, servedNow, hb])
  refine ⟨hstep, fun t ht => ?_⟩
  obtain ⟨hkeep, -⟩ := runAction_keeps (hstep ▸ ht)
  exact hkeep.trans hin

/-- A command that was just accepted, with no input behind it, runs its actions. -/
theorem running_startCommand (prog : List Action) {s : State} (h : s.inbox = []) : Running (startCommand prog s) prog :=
  ⟨rfl, by simp [noInput, h], rfl⟩

/-! ## `WROP` and `RDOP` -/

theorem Offered.wrop (b : Board) {s : State} {sp : Space} {a v : Byte} {rest : List HostInput}
    (h : Offered s (.cmd (.wrop sp a v)) rest) (hr : ready s = true) :
    stepOn b s = .next (startCommand [.wrop sp a v, .finish] { s with inbox := rest }) :=
  (h.step b).trans (congrArg Host.Outcome.next (if_pos hr))

/-- Settles O44: the steps that accept the command, clock the frame and answer. -/
theorem wropResult : Obligations.WropResult := by
  unfold Obligations.WropResult
  intro b s sp a v h hhs hf
  obtain ⟨hr, hgo⟩ := (running_startCommand [.wrop sp a v, .finish] (s := { s with inbox := [] }) rfl).go b
    (congrArg Host.Outcome.next (writeOp_eq (writeCode sp) a v _)) rfl rfl rfl
  rw [runOn_next (h.wrop b ((ready_iff s).2 ⟨hhs, hf⟩)), hgo 1, hr.finishes b, h.busy]
  cases sp <;> rfl

theorem Offered.rdop (b : Board) {s : State} {sp : Space} {a : Byte} {rest : List HostInput}
    (h : Offered s (.cmd (.rdop sp a)) rest) (hr : ready s = true) :
    stepOn b s = .next (startCommand [.rdop sp a, .finishRead] { s with inbox := rest, rdlog := [] }) :=
  (h.step b).trans (congrArg Host.Outcome.next (if_pos hr))

/-- The last action of a command that answers a byte. -/
theorem Running.finishes_read (b : Board) {s : State} (h : Running s [.finishRead]) :
    runOn b 1 s = .next { s with busy := false, todo := [], reply := some (.doneByte s.rdata) } :=
  runOn_next (h.step b)

/-- Settles O45: the steps that accept the command, clock the frame and answer; the log was emptied, and the read adds its
record. -/
theorem rdopResult : Obligations.RdopResult := by
  unfold Obligations.RdopResult
  intro b s sp a h hhs hf
  obtain ⟨hr, hgo⟩ :=
    (running_startCommand [.rdop sp a, .finishRead] (s := { s with inbox := [], rdlog := [] }) rfl).go b
      (congrArg Host.Outcome.next (readAndLog_eq (readCode sp) a _)) rfl rfl rfl
  refine ⟨_, readAnswers_length (readCode sp) a _, take_samples_prefix_readAnswers _ a _, ?_⟩
  rw [runOn_next (h.rdop b ((ready_iff s).2 ⟨hhs, hf⟩)), hgo 1, hr.finishes_read b, h.busy]
  cases sp <;> rfl

/-! ## `EXEC` -/

theorem Offered.exec (b : Board) {s : State} {src : VecSrc} {rest : List HostInput}
    (h : Offered s (.cmd (.exec src)) rest) (hr : ready s = true) :
    stepOn b s = .next (startCommand [.load src, .run, .finish] { s with inbox := rest, rdlog := [] }) :=
  (h.step b).trans (congrArg Host.Outcome.next (if_pos hr))

/-- Settles O46: the steps that accept the command and load the vector, the loop, which runs what the decoder finds, and the
step that answers. -/
theorem execResult : Obligations.ExecResult := by
  unfold Obligations.ExecResult
  intro b s src is h hhs hf hlen hdec
  obtain ⟨hload, hgo⟩ :=
    (running_startCommand [.load src, .run, .finish] (s := { s with inbox := [], rdlog := [] }) rfl).go b
      (startExec_of_lt hlen _) rfl rfl rfl
  obtain ⟨hok, -, -⟩ := execAgreesWithDecode b _ [.finish] (srcBytes b src) hload rfl rfl rfl
  obtain ⟨t, hexec, hrun, -⟩ := hok is hdec
  have ht : Running t [.run, .finish] := by
    obtain rfl := Host.Outcome.next.inj ((execAll_eq is _).symm.trans hexec)
    exact afterAll_keeps (P := fun u => Running u _) (fun i _ => running_afterInstr i) is hload
  have hend := (ht.of (t := { t with todo := [.finish] }) rfl rfl rfl).finishes b
  have haccept := h.exec b ((ready_iff s).2 ⟨hhs, hf⟩)
  exact ⟨t, hexec, (runOn_next haccept).trans ((hgo (is.length + 2)).trans ((runOn_add _ 1 hrun).trans hend))⟩

end Sys2Proof.Machine

namespace Sys2Proof.Machine

/-! ## Images of a whole number of banks -/

theorem wholeBanks_of_not_dvd {image : List Byte} (h : image.length % 8192 ≠ 0) (op : HostProg) :
    wholeBanks image op = .ret .invalidImageSize := if_pos h

theorem wholeBanks_of_dvd {image : List Byte} (h : image.length % 8192 = 0) (op : HostProg) :
    wholeBanks image op = op := if_neg (not_not.2 h)

/-- Settles O57: the three operations check the length before all else. -/
theorem imageSizeCheckedFirst : Obligations.ImageSizeCheckedFirst := by
  unfold Obligations.ImageSizeCheckedFirst
  intro σ dev h d b image hl
  simp only [programImage, verifyImage, patchImage, wholeBanks_of_not_dvd hl, runHost_ret, and_self]

/-! ## The commands of the host's operations, and its variables after them -/

/-- The two commands of an `execAndWait` (R231). -/
def execAndWaitCommands (id : VecId) : List HostCmd := [.exec (.id id), .waitpoll]

/-- The command that selects a block (R244). -/
def setBlockCommand (b : Board) (blk : Nat) : HostCmd := .wrop .memory b.blockSelAddr (BitVec.ofNat 8 blk)

/-- The writes of a bank-select sequence (R243). -/
def setBankCommands (b : Board) (bank : Nat) : List HostCmd :=
  (b.setBankSeq bank).map fun w => .wrop .register w.1 w.2

/-- The reads of the window at the given offsets (R247). -/
def readCommands (offsets : List Nat) : List HostCmd := offsets.map fun i => .rdop .memory (bufAddr i)

/-- The commands that stage bytes from offset `i` of the window on (R249). -/
def stageCommands (i : Nat) (ds : List Byte) : List HostCmd :=
  (ds.zipIdx i).map fun d => .wrop .memory (bufAddr d.2) d.1

/-- The commands `program` gives for one block (R250). -/
def programBlockCommands (b : Board) (image : List Byte) (bank blk : Nat) : List HostCmd :=
  stageCommands 0 (imageBlock image bank blk) ++ setBlockCommand b blk :: execAndWaitCommands .program

/-- The commands `program` gives for one bank. -/
def programBankCommands (b : Board) (image : List Byte) (bank : Nat) : List HostCmd :=
  setBankCommands b bank ++ (List.range 128).flatMap (programBlockCommands b image bank)

/-- The host's variables after the blocks of a bank, one recorded after the other (R246). -/
def blocksRecorded (h : HostVars) (blks : List Nat) : HostVars :=
  blks.foldl (fun h blk => { h with curBlk := some blk }) h

theorem blocksRecorded_curBank (h : HostVars) (blks : List Nat) : (blocksRecorded h blks).curBank = h.curBank := by
  induction blks generalizing h with
  | nil => rfl
  | cons blk blks ih => exact ih { h with curBlk := some blk }

/-- The host's variables after a bank and its blocks. -/
def bankRecorded (h : HostVars) (bank : Nat) : HostVars :=
  blocksRecorded { h with curBank := some bank } (List.range 128)

/-- The banks are recorded one after the other, so the last one stays. -/
theorem foldl_bankRecorded_curBank (h : HostVars) (n : Nat) :
    ((List.range n).foldl bankRecorded h).curBank = if n = 0 then h.curBank else some (n - 1) := by
  cases n with
  | zero => rfl
  | succ n => rw [List.range_succ, List.foldl_concat, bankRecorded, blocksRecorded_curBank]; rfl

/-! ## What a host operation gives before it goes on -/

theorem map_getD_range {want : List Byte} {n : Nat} (hl : want.length = n) :
    (List.range n).map (want.getD · 0x00#8) = want := by
  apply List.ext_getElem
  · rw [List.length_map, List.length_range, hl]
  · intro i _ hi
    rw [List.getElem_map, List.getElem_range, List.getD_eq_getElem want _ hi]

section

variable {σ : Type} {dev : σ → HostCmd → Reply × σ} {h h' h'' : HostVars} {p q r : HostProg} {cs cs' : List HostCmd}

/-- With the variables `h`, and whatever the device's state, `p` gives the commands `cs` and goes on as `q` with the
variables `h'`. -/
def Gives (dev : σ → HostCmd → Reply × σ) (cs : List HostCmd) (p q : HostProg) (h h' : HostVars) : Prop :=
  ∀ d, ∃ e, runHost dev p h d = { runHost dev q h' e with cmds := cs ++ (runHost dev q h' e).cmds }

theorem Gives.refl (p : HostProg) (h : HostVars) : Gives dev [] p p h h := fun d => ⟨d, rfl⟩

theorem Gives.trans (hp : Gives dev cs p q h h') (hq : Gives dev cs' q r h' h'') :
    Gives dev (cs ++ cs') p r h h'' := fun d => by
  obtain ⟨e, he⟩ := hp d
  obtain ⟨e', he'⟩ := hq e
  exact ⟨e', by rw [he, he', List.append_assoc]⟩

/-- An operation that then is over gives these commands and no more. -/
theorem Gives.ends {res : HostResult} (hp : Gives dev cs p (.ret res) h h') (d : σ) :
    (runHost dev p h d).cmds = cs ∧ (runHost dev p h d).result = res ∧ (runHost dev p h d).vars = h' := by
  obtain ⟨e, he⟩ := hp d
  rw [he, runHost_ret]
  exact ⟨List.append_nil cs, rfl, rfl⟩

theorem gives_must {c : HostCmd} (hc : ∀ e, (dev e c).1 = .done) (k : HostProg) (h : HostVars) :
    Gives dev [c] (must c k) k h (varsAfter c h) := fun d => ⟨_, runHost_must_done h (hc d) k⟩

theorem gives_readByte {a v : Byte} (hc : ∀ e, (dev e (.rdop .memory a)).1 = .doneByte v) (k : Byte → HostProg)
    (h : HostVars) : Gives dev [.rdop .memory a] (readByte a k) (k v) h h := fun d => ⟨_, runHost_readByte h (hc d) k⟩

theorem gives_setCurBlk (blk : Nat) (k : HostProg) (h : HostVars) :
    Gives dev [] (.setCurBlk blk k) k h { h with curBlk := some blk } := fun d => ⟨d, rfl⟩

/-- A loop whose body gives `cmds i` in its turn `i` and changes the variables by `next` gives these one after the other. -/
theorem gives_foldr {body : Nat → HostProg → HostProg} {cmds : Nat → List HostCmd} {next : HostVars → Nat → HostVars}
    (hb : ∀ i k h, Gives dev (cmds i) (body i k) k h (next h i)) (is : List Nat) (k : HostProg) (h : HostVars) :
    Gives dev (is.flatMap cmds) (is.foldr body k) k h (is.foldl next h) := by
  induction is generalizing h with
  | nil => exact .refl k h
  | cons i is ih => exact (hb i _ h).trans (ih (next h i))

/-- Bytes of the window that the device answers with `f` of their offset are read in ascending order (R247). -/
theorem gives_readFrom {f : Nat → Byte} {n i : Nat}
    (hc : ∀ e j, i ≤ j → j < i + n → (dev e (.rdop .memory (bufAddr j))).1 = .doneByte (f j))
    (got : List Byte) (k : List Byte → HostProg) (h : HostVars) :
    Gives dev (readCommands (List.range' i n)) (readFrom n i got k) (k (got ++ (List.range' i n).map f)) h h := by
  induction n generalizing i got with
  | zero => rw [List.range'_zero, List.map_nil, List.append_nil]; exact .refl _ h
  | succ n ih =>
    have hrest := ih (i := i + 1) (fun e j hi hj => hc e j (by omega) (by omega)) (got ++ [f i])
    rw [List.append_assoc] at hrest
    exact (gives_readByte (fun e => hc e i (by omega) (by omega)) _ h).trans hrest

/-- A status of zero lets the operation go on (R252). -/
theorem gives_checkStatus (hc : ∀ e, (dev e (.rdop .memory 0xF8#8)).1 = .doneByte 0x00#8) (st : Stage) (k : HostProg)
    (h : HostVars) : Gives dev [.rdop .memory 0xF8#8] (checkStatus st k) k h h :=
  gives_readByte hc (fun v => if v = 0x00#8 then k else .ret (.protocolFault st)) h

/-- The device ends each `EXEC`, `WAITPOLL` and `WROP` with `Done`. -/
structure EndsDone (dev : σ → HostCmd → Reply × σ) : Prop where
  exec : ∀ e src, (dev e (.exec src)).1 = .done
  waitpoll : ∀ e, (dev e .waitpoll).1 = .done
  wrop : ∀ e sp a v, (dev e (.wrop sp a v)).1 = .done

variable (hd : EndsDone dev)
include hd

theorem EndsDone.gives_execAndWait (id : VecId) (k : HostProg) (h : HostVars) :
    Gives dev (execAndWaitCommands id) (execAndWait id k) k h h :=
  (gives_must (fun e => hd.exec e (.id id)) _ h).trans (gives_must hd.waitpoll k h)

theorem EndsDone.gives_setBlock (b : Board) (blk : Nat) (k : HostProg) (h : HostVars) :
    Gives dev [setBlockCommand b blk] (setBlock b blk k) k h h :=
  gives_must (fun e => hd.wrop e _ _ _) k h

theorem EndsDone.gives_setBank (b : Board) (bank : Nat) (k : HostProg) (h : HostVars) :
    Gives dev (setBankCommands b bank) (setBank b bank k) k h { h with curBank := some bank } :=
  runHost_setBank hd.wrop b bank k h

/-- A window that holds `want` is read as that (R247). -/
theorem EndsDone.gives_verifySetupAndRead {want : List Byte} (hl : want.length = 64)
    (hc : ∀ e i, i < 64 → (dev e (.rdop .memory (bufAddr i))).1 = .doneByte (want.getD i 0x00#8))
    (k : List Byte → HostProg) (h : HostVars) :
    Gives dev (execAndWaitCommands .verifySetup ++ readCommands (List.range 64)) (verifySetupAndRead k) (k want) h h := by
  have hread := gives_readFrom (i := 0) (n := 64) (fun e j _ hj => hc e j (by omega)) [] k h
  rw [← List.range_eq_range', map_getD_range hl, List.nil_append] at hread
  exact (hd.gives_execAndWait .verifySetup _ h).trans hread

/-! ## `patch` of a block that holds what it should -/

/-- The bytes read are the ones wanted, so `patch` goes on after the status (R252). -/
theorem EndsDone.gives_patchBlock_unchanged (b : Board) {want : List Byte} (hl : want.length = 64)
    (hread : ∀ e i, i < 64 → (dev e (.rdop .memory (bufAddr i))).1 = .doneByte (want.getD i 0x00#8))
    (hstatus : ∀ e, (dev e (.rdop .memory 0xF8#8)).1 = .doneByte 0x00#8) (blk : Nat) (k : HostProg) (h : HostVars) :
    Gives dev ([setBlockCommand b blk] ++ (execAndWaitCommands .verifySetup ++ readCommands (List.range 64) ++
      [.rdop .memory 0xF8#8])) (patchBlock b want blk k) k h h := by
  refine (hd.gives_setBlock b blk _ h).trans ((hd.gives_verifySetupAndRead hl hread _ h).trans ?_)
  rw [if_pos rfl]
  exact gives_checkStatus hstatus .read k h

/-! ## `program` -/

theorem EndsDone.gives_stageFrom (i : Nat) (ds : List Byte) (k : HostProg) (h : HostVars) :
    Gives dev (stageCommands i ds) (stageFrom i ds k) k h h := by
  induction ds generalizing i with
  | nil => exact .refl k h
  | cons d ds ih => exact (gives_must (fun e => hd.wrop e .memory (bufAddr i) d) _ h).trans (ih (i + 1))

theorem EndsDone.gives_programBlock (b : Board) (image : List Byte) (bank blk : Nat) (k : HostProg)
    (h : HostVars) :
    Gives dev (programBlockCommands b image bank blk)
      (.setCurBlk blk (stage (imageBlock image bank blk) (setBlock b blk (programBlock k)))) k h
      { h with curBlk := some blk } :=
  (gives_setCurBlk blk _ h).trans
    ((hd.gives_stageFrom 0 _ _ _).trans ((hd.gives_setBlock b blk _ _).trans (hd.gives_execAndWait .program k _)))

/-- `program` of a whole number of banks erases, and programs the blocks of each bank in order (R250). -/
theorem EndsDone.gives_programImage (b : Board) {image : List Byte} {n : Nat} (hl : image.length = n * 8192) (h : HostVars) :
    Gives dev (execAndWaitCommands .bulkErase ++ (List.range n).flatMap (programBankCommands b image))
      (programImage b image) (.ret .ok) h ((List.range n).foldl bankRecorded h) := by
  have hn : image.length / Config.bankBytes = n := hl ▸ Nat.mul_div_cancel n (by decide)
  rw [programImage, wholeBanks_of_dvd (by omega), forBanks, hn]
  refine (hd.gives_execAndWait .bulkErase _ h).trans (gives_foldr (fun bank k h => ?_) (List.range n) _ h)
  exact (hd.gives_setBank b bank _ h).trans (gives_foldr (hd.gives_programBlock b image bank) (List.range 128) k _)

end

/-- Settles O59: the operation that the block leads to is over at once. -/
theorem patchSkipsUnchangedBlock : Obligations.PatchSkipsUnchangedBlock := by
  unfold Obligations.PatchSkipsUnchangedBlock
  intro σ dev h d b want blk r hl hexec hwait hwrop hread hstatus
  have hd : EndsDone dev := ⟨hexec, hwait, hwrop⟩
  exact (hd.gives_patchBlock_unchanged b hl hread hstatus blk (.ret r) h).ends d

/-! ## The number of commands of `program` -/

/-- Lists of one length, one after the other. -/
theorem length_flatMap_of_forall {α β : Type} {l : List α} {f : α → List β} {m : Nat} (h : ∀ a ∈ l, (f a).length = m) :
    (l.flatMap f).length = l.length * m := by
  rw [List.length_flatMap, List.sum_eq_card_nsmul _ m (by simpa using h), List.length_map, smul_eq_mul]

theorem imageBlock_length {image : List Byte} {n bank blk : Nat} (hl : image.length = n * 8192) (hbank : bank < n)
    (hblk : blk < 128) : (imageBlock image bank blk).length = 64 := by
  rw [imageBlock, List.length_take, List.length_drop, hl, Config.bankBytes, Config.blockBytes]
  omega

/-- A block takes a write for each of its bytes, one to select it, and two commands to program it. -/
theorem programBlockCommands_length {b : Board} {image : List Byte} {n bank blk : Nat} (hl : image.length = n * 8192)
    (hbank : bank < n) (hblk : blk < 128) : (programBlockCommands b image bank blk).length = 67 := by
  rw [programBlockCommands, stageCommands, List.length_append, List.length_map, List.length_zipIdx,
    imageBlock_length hl hbank hblk]
  rfl

theorem programBankCommands_length {b : Board} {image : List Byte} {n bank sl : Nat} (hl : image.length = n * 8192)
    (hbank : bank < n) (hs : (b.setBankSeq bank).length = sl) :
    (programBankCommands b image bank).length = sl + 8576 := by
  have hblocks := length_flatMap_of_forall (l := List.range 128) (f := programBlockCommands b image bank) fun blk hblk =>
    programBlockCommands_length hl hbank (List.mem_range.1 hblk)
  rw [programBankCommands, setBankCommands, List.length_append, List.length_map, hs, hblocks, List.length_range]

/-- Settles O58: the two commands of the erasure, and those of each bank. -/
theorem programCommandCount : Obligations.ProgramCommandCount := by
  unfold Obligations.ProgramCommandCount
  intro σ dev h d b image n sl hexec hwait hwrop hl hs
  have hd : EndsDone dev := ⟨hexec, hwait, hwrop⟩
  obtain ⟨hcmds, hres, hvars⟩ := (hd.gives_programImage b hl h).ends d
  have hbanks := length_flatMap_of_forall (l := List.range n) (f := programBankCommands b image) fun bank hbank =>
    programBankCommands_length hl (List.mem_range.1 hbank) (hs bank)
  refine ⟨?_, hres, hvars ▸ foldl_bankRecorded_curBank h n⟩
  rw [hcmds, List.length_append, hbanks, List.length_range]
  rfl

end Sys2Proof.Machine

namespace Sys2Proof.Machine

/-! ## The text of a word -/

theorem msbBits_cons {w : Nat} (b : Level) (v : BitVec w) : msbBits (v.cons b) = b :: msbBits v := by
  rw [msbBits, List.range_succ_eq_map, List.map_cons, List.map_map]
  congr 1
  · simp [BitVec.getMsbD, BitVec.getElem_cons]
  · refine List.map_congr_left fun k hk => ?_
    have hk : k < w := List.mem_range.1 hk
    have hi : w - (k + 1) = w - 1 - k := by omega
    have hlt : w - 1 - k < w := by omega
    simp [BitVec.getMsbD, BitVec.getElem_cons, hk, hi, hlt.ne, BitVec.getLsbD_eq_getElem hlt]

theorem bitChars_append (bs cs : List Level) : bitChars (bs ++ cs) = bitChars bs ++ bitChars cs :=
  List.map_append

theorem bitChars_length (bs : List Level) : (bitChars bs).length = bs.length := List.length_map _

theorem binaryFrom_bitChars_cons (n : Nat) (b : Level) (bs : List Level) :
    binaryFrom n (bitChars (b :: bs)) = binaryFrom (2 * n + b.toNat) (bitChars bs) := by
  cases b <;> rfl

/-- The characters of a word spell its value, behind what the digits before them spelled. -/
theorem binaryFrom_msbBits {w : Nat} (v : BitVec w) (n : Nat) :
    binaryFrom n (bitChars (msbBits v)) = some (n * 2 ^ w + v.toNat) := by
  induction w generalizing n with
  | zero => simp [msbBits, bitChars, binaryFrom, BitVec.of_length_zero]
  | succ w ih =>
    obtain ⟨b, u, rfl⟩ : ∃ b u, v = BitVec.cons b u := ⟨_, _, (BitVec.cons_msb_setWidth v).symm⟩
    rw [msbBits_cons, binaryFrom_bitChars_cons, ih, BitVec.toNat_cons']
    congr 1
    rw [Nat.shiftLeft_eq]
    ring

/-- The compiler reads a byte back from where its characters stand. -/
theorem byteAt_of_append {pos : Nat} {pre : List Char} (hpre : pre.length = pos) (a : Byte) (post : List Char) :
    byteAt pos (pre ++ (bitChars (msbBits a) ++ post)) = some a := by
  have hlen : (bitChars (msbBits a)).length = 8 := by rw [bitChars_length, msbBits_length]
  rw [byteAt, List.drop_left' hpre, List.take_left' hlen, binaryFrom_msbBits]
  simp

/-! ## What a group compiles to, by its opcode (R272 to R275) -/

section
variable {g : List Char} {a v : Byte}

theorem compileGroup_wrmem (hop : binaryFrom 0 (g.take 3) = some 4) (ha : byteAt 3 g = some a)
    (hv : byteAt 11 g = some v) : compileGroup g = .ok [.wrmem a v] := by
  simp only [compileGroup, hop, ha, hv]

theorem compileGroup_rdmem (hop : binaryFrom 0 (g.take 3) = some 5) (ha : byteAt 3 g = some a) :
    compileGroup g = .ok [.rdmem a 0x00#8] := by
  simp only [compileGroup, hop, ha]

theorem compileGroup_wrreg (hop : binaryFrom 0 (g.take 3) = some 6) (ha : byteAt 3 g = some a)
    (hv : byteAt 11 g = some v) : compileGroup g = .ok [.wrreg a v] := by
  simp only [compileGroup, hop, ha, hv]

theorem compileGroup_rdreg (hop : binaryFrom 0 (g.take 3) = some 7) (ha : byteAt 3 g = some a) :
    compileGroup g = .ok [.rdreg a 0x00#8] := by
  simp only [compileGroup, hop, ha]

theorem compileGroup_nop (hop : binaryFrom 0 (g.take 3) = some 0) : compileGroup g = .ok [.nop] := by
  simp only [compileGroup, hop]

/-- The triples 001, 010 and 011 are no opcode. -/
theorem compileGroup_unrecognized {k : Nat} (hop : binaryFrom 0 (g.take 3) = some k) (hk : 0 < k ∧ k < 4) :
    compileGroup g = .unrecognizedOpcode := by
  obtain rfl | rfl | rfl : k = 1 ∨ k = 2 ∨ k = 3 := by omega
  all_goals simp only [compileGroup, hop]

end

/-- Settles O60: the opcode is read from the first three characters, and the operands from where their bits stand. -/
theorem compilerGroups : Obligations.CompilerGroups := by
  unfold Obligations.CompilerGroups
  refine ⟨fun a v tl _ => ?writes, fun a tl _ => ?reads, fun tl _ => ?noOperands⟩
  case writes =>
    have haddr : ∀ pre : List Char, pre.length = 3 →
        byteAt 3 (pre ++ bitChars (msbBits a ++ msbBits v) ++ tl) = some a := fun pre hpre => by
      rw [bitChars_append, List.append_assoc, List.append_assoc]
      exact byteAt_of_append hpre a _
    have hvalue : ∀ pre : List Char, pre.length = 3 →
        byteAt 11 (pre ++ bitChars (msbBits a ++ msbBits v) ++ tl) = some v := fun pre hpre => by
      rw [bitChars_append, ← List.append_assoc, List.append_assoc]
      exact byteAt_of_append (by rw [List.length_append, hpre, bitChars_length, msbBits_length]) v tl
    exact ⟨compileGroup_wrmem rfl (haddr _ rfl) (hvalue _ rfl),
      compileGroup_wrreg rfl (haddr _ rfl) (hvalue _ rfl)⟩
  case reads =>
    have haddr : ∀ pre : List Char, pre.length = 3 →
        byteAt 3 (pre ++ bitChars (msbBits a) ++ tl) = some a := fun pre hpre => by
      rw [List.append_assoc]
      exact byteAt_of_append hpre a tl
    exact ⟨compileGroup_rdmem rfl (haddr _ rfl), compileGroup_rdreg rfl (haddr _ rfl)⟩
  case noOperands =>
    exact ⟨compileGroup_nop rfl, compileGroup_unrecognized (k := 1) rfl (by decide),
      compileGroup_unrecognized (k := 2) rfl (by decide), compileGroup_unrecognized (k := 3) rfl (by decide)⟩

end Sys2Proof.Machine

namespace Sys2Proof.Machine

/-! ## Faults: what raising one writes, and what clears it -/

/-- Settles O24: the four fields that `raise` writes, and that with their old values put back the state is as it was. -/
theorem raiseEffect : Obligations.RaiseEffect := by
  unfold Obligations.RaiseEffect
  intro f s
  exact ⟨raise_fault s f, raise_busy s f, raise_todo s f, raise_reply s f, fun adr => by rw [raise_vbuf], rfl⟩

/-- Settles O26: a latched fault makes the block not ready, which only `ACQUIRE` does not ask for. -/
theorem faultGate : Obligations.FaultGate := by
  unfold Obligations.FaultGate
  intro b s c rest h hv
  have hnotReady : ¬ (s.hs = .ready ∧ s.fault.valid = false) := fun ⟨_, hclear⟩ => by simp [hv] at hclear
  refine ⟨fun hc => readyGate b s c rest h hc hnotReady, ?acquire⟩
  case acquire =>
    rintro rfl hpath
    exact ⟨acquireStarted rest s, h.acquire b hpath, rfl, rfl, rfl⟩

/-! ## The timer, from its arming to its pulse -/

/-- Settles O28: armed, the timer rises at its first expiry, and falls at the second. -/
theorem timerMakesFirstPulse : Obligations.TimerMakesFirstPulse := by
  unfold Obligations.TimerMakesFirstPulse
  intro s
  have hrise : timerExpiry (startPollClock s) = { s with tmr := .armedLow, sclk := true } :=
    timerExpiry_armedHigh (startPollClock_tmr s)
  refine ⟨hrise, ?_⟩
  rw [hrise]
  exact timerExpiry_armedLow rfl

end Sys2Proof.Machine

namespace Sys2Proof.Machine

/-! ## Block reset, and what the block does after it -/

/-- A block reset is taken at any time, in the middle of a command too. -/
theorem stepOn_reset (b : Board) {s : State} {cut : Nat} {rest : List HostInput} (h : s.inbox = .reset cut :: rest) :
    stepOn b s = .next (resetInput b cut { s with inbox := rest }) := by
  simp [stepOn, h, servedNow, serveInput]

/-- Settles O52: the step is the reset input, `resetInput_eq` gives the trace, `resetTo_width` the
widths of `PC` and `VLEN`, and every other register is `State.reset`'s. -/
theorem blockResetInput : Obligations.BlockResetInput := by
  unfold Obligations.BlockResetInput
  intro b s cut rest hin
  obtain ⟨d, es, sa, ed, po, vb, heq, hlen, hidle, -, -, hcut, hnone⟩ := resetInput_eq b cut { s with inbox := rest }
  refine ⟨_, es, (stepOn_reset b hin).trans (congrArg Host.Outcome.next heq), ?_⟩
  exact ⟨rfl, rfl, rfl, rfl, rfl, rfl, rfl, rfl, rfl, rfl, rfl, rfl, (resetTo_width b d _).1, (resetTo_width b d _).2, rfl,
    hlen, hidle, hcut, hnone⟩

/-- An idle block that is given nothing waits (R321). -/
theorem stepOn_idle (b : Board) {s : State} (hb : s.busy = false) (hin : s.inbox = []) : stepOn b s = .next s := by
  simp [stepOn, hin, runOwn, hb]

/-- After reset the block is idle, so that it is offered the first of its inputs. -/
theorem offered_reset (i : HostInput) (rest : List HostInput) : Offered { State.reset with inbox := i :: rest } i rest :=
  ⟨rfl, rfl⟩

/-- Settles O50: the reset state is idle, not `READY` and on the hard path. -/
theorem afterResetOnlyAcquire : Obligations.AfterResetOnlyAcquire := by
  unfold Obligations.AfterResetOnlyAcquire
  have hnotReady : State.reset.hs ≠ .ready := nofun
  refine ⟨stepOn_idle _ rfl rfl, fun s hb hin => stepOn_idle _ hb hin, ?refused, ?acquire⟩
  case refused =>
    intro c rest hc
    exact readyGate _ _ c rest (offered_reset _ rest) hc fun ⟨hready, _⟩ => hnotReady hready
  case acquire =>
    intro rest
    exact ⟨_, (offered_reset _ rest).acquire _ (.inl rfl), rfl⟩

end Sys2Proof.Machine
